-- ==== Sys2Proof/Word.lean ====
section
/-! DEFINITION. The words of the CORE: 32-bit registers (R9), 8-bit bytes (R13), byte sequences (R13). -/

namespace Sys2Proof

/-- A 32-bit host register or command word (00_scope.md R9, 30_encoding.md R90). -/
abbrev Word := BitVec 32

/-- One byte of DMEM or of a byte sequence (00_scope.md R13). -/
abbrev Byte := BitVec 8

/-- The spec's `Bytes`: a finite sequence of bytes, first byte first (00_scope.md R13). -/
abbrev Bytes := List Byte

end Sys2Proof
end

