-- ==== Sys2Proof/Machine/Bits.lean ====
section
/-! DEFINITION. Bit vectors and byte sequences as the spec writes them: table positions, permutations, and the big-endian conversions
between bytes and vectors (00_scope.md R10 to R13; 40_des_primitives.md R110 to R112; 20_memory.md R63, R64). -/

namespace Sys2Proof.Machine

/-- Table position `x⟨p⟩ = x[n − p]`, counted from 1 at the most significant bit (00_scope.md R10). -/
def tablePos {n : Nat} (x : BitVec n) (p : Nat) : Bool := x.getLsbD (n - p)

/-- The number whose binary digits are the given bits, most significant first. -/
def bitsToNat (bs : List Bool) : Nat := bs.foldl (fun acc b => 2 * acc + b.toNat) 0

/-- `permute(x, T)⟨j⟩ = x⟨T[j]⟩` for a table of `m` entries in reading order (40_des_primitives.md R112). -/
def permute (m : Nat) {n : Nat} (x : BitVec n) (table : List Nat) : BitVec m :=
  BitVec.ofNat m (bitsToNat (table.map (tablePos x)))

/-- The number a byte sequence stands for, first byte most significant (20_memory.md R64). -/
def bytesToNat (b : Bytes) : Nat := b.foldl (fun acc x => 256 * acc + x.toNat) 0

/-- `bytesToBits` of a sequence of `n / 8` bytes (40_des_primitives.md R110). -/
def bytesToBits (n : Nat) (b : Bytes) : BitVec n := BitVec.ofNat n (bytesToNat b)

/-- `bitsToBytes`: byte `j` is positions ⟨8j+1⟩ to ⟨8j+8⟩ (40_des_primitives.md R111). It is applied only to widths that are multiples of 8
(R111, 93_implementation_defined.md I3; log entry 12). -/
def bitsToBytes {n : Nat} (x : BitVec n) : Bytes :=
  (List.range (n / 8)).map fun j => x.extractLsb' (n - 8 * (j + 1)) 8

/-- Byte `k` of a word, `w[31−8k : 24−8k]` (10_state.md R40, R41, R43). -/
def wordByte (w : Word) (k : Nat) : Byte := w.extractLsb' (24 - 8 * k) 8

/-- The word of four bytes starting at index `i` of a sequence, `b[i] ‖ b[i+1] ‖ b[i+2] ‖ b[i+3]` (20_memory.md R64). -/
def wordAt (b : Bytes) (i : Nat) : Word := bytesToBits 32 ((b.drop i).take 4)

/-- Byte-by-byte exclusive or of two sequences of one length (00_scope.md R10). -/
def xorBytes (a b : Bytes) : Bytes := List.zipWith (· ^^^ ·) a b

/-- The first `count` consecutive blocks of `size` bytes. -/
def blocks (size : Nat) : Nat → Bytes → List Bytes
  | 0, _ => []
  | count + 1, b => b.take size :: blocks size count (b.drop size)

end Sys2Proof.Machine
end

