-- ==== Sys2Proof/Config.lean ====
section
/-! DEFINITION. What the spec leaves open: the OPEN parameters DMEM_SIZE and DMEM_INIT (00_scope.md R9), the values a read "returns any value"
of (70_reset_and_hazards.md R290, R291), and how long a command stays pending (R295). All are opaque: no proof can see what they are. -/

namespace Sys2Proof.Config

/-- Which of the `2^32 - 1` legal sizes DMEM has, counted from 0 (R9: 1 ≤ DMEM_SIZE ≤ 2^32−1). Log entry 1. -/
opaque dmemSizeIndex : Fin 4294967295

/-- `DMEM_SIZE`, as MEMSIZE reads it after power-on: from 1 to 2^32−1, which one is not known (R9, R60). Log entry 1. -/
def dmemSize : Word := BitVec.ofNat 32 (dmemSizeIndex.val + 1)

/-- `DMEM_INIT`: the byte at an address after the `n`-th reset, chosen by the environment anew at every reset (20_memory.md R62).
Log entry 2. -/
opaque dmemInit : Nat → Nat → Byte

/-- The word the `n`-th draw gives to a register read that "returns any value" (R290, R291). Log entry 6. -/
opaque freeWord : Nat → Word

/-- The byte the `n`-th draw gives to a DMEM read that "returns any value" (R290, R291). Log entry 6. -/
opaque freeByte : Nat → Byte

/-- How many host steps pass between the acceptance of a command and its engine step, for the `n`-th draw: any natural number,
finite (R295). Log entry 5. -/
opaque latency : Nat → Nat

end Sys2Proof.Config
end

