-- ==== Sys2Proof/Syntax.lean ====
section
/-! DEFINITION. The commands of the CORE: one constructor per row of the opcode table (30_encoding.md R96), with the operands the
command word carries (R92). -/

namespace Sys2Proof

/-- A command (30_encoding.md R96). Every operand that is not a field here is the content of the registers the command's rule names (R92). -/
inductive Instr where
  /-- NOP, OP 0x00 (48_control.md R240). -/
  | nop
  /-- DES_KS, OP 0x01 (41_des_key_schedule.md R142). -/
  | desKs
  /-- DES_ROUND, OP 0x02, IDX the subkey index 0 to 15 (42_des_feistel.md R152). -/
  | desRound (idx : BitVec 4)
  /-- DES_BLOCK, OP 0x03, DIR = 1 to decrypt (42_des_feistel.md R153, 30_encoding.md R93). -/
  | desBlock (decrypt : Bool)
  /-- DES_ECB_DEC, OP 0x04 (43_des_ecb.md R163). -/
  | desEcbDec
  /-- AES_KEYEXP, OP 0x10 (45_aes_key_expansion.md R204). -/
  | aesKeyexp
  /-- AES_SUBBYTES, OP 0x11 (46_aes_block.md R216). -/
  | aesSubbytes
  /-- AES_SHIFTROWS, OP 0x12 (46_aes_block.md R217). -/
  | aesShiftrows
  /-- AES_MIXCOLUMNS, OP 0x13 (46_aes_block.md R218). -/
  | aesMixcolumns
  /-- AES_ADDRK, OP 0x14, IDX the round index, legal from 0 to 10 (46_aes_block.md R219, 30_encoding.md R94). -/
  | aesAddrk (idx : BitVec 4)
  /-- AES_BLOCK_ENC, OP 0x15 (46_aes_block.md R220). -/
  | aesBlockEnc
  /-- AES_CBC_ENC, OP 0x16 (47_aes_cbc.md R233). -/
  | aesCbcEnc
  /-- PBKDF2, OP 0x20 (44_pbkdf2.md R180). -/
  | pbkdf2
  /-- CLEAR, OP 0x30 (48_control.md R241). -/
  | clear
deriving DecidableEq, Repr

end Sys2Proof
end

