-- ==== Sys2Proof/Machine/HostTypes.lean ====
section
/-! DEFINITION. The host's side as data: the names of the register window (10_state.md R23), the host's single accesses and what a read
returned, and the statements of a host program (30_encoding.md R99, R100). -/

namespace Sys2Proof.Machine

/-- The registers of the register window by name (10_state.md R23). -/
inductive RegName where
  | cmd | status
  | srcAddr | srcLen | dstAddr | outLen | keyAddr | keyLen | ivAddr | saltAddr | saltLen | iter | dkLen | memsize
  | desKeyHi | desKeyLo | desBlkHi | desBlkLo
  | aesKey (i : Fin 4)
  | aesState (i : Fin 4)
  | desSkHi (i : Fin 16)
  | desSkLo (i : Fin 16)
  | aesRk (j : Fin 44)
deriving DecidableEq, Repr

/-- One access of the host (20_memory.md R70, R71; 30_encoding.md R99). `width` is the access's width in bits: only 32 is legal in the
register window (R70). A `wait` is the loop of R100: it reads STATUS until bit 0 is 0. -/
inductive HostOp where
  | regWrite (offset : BitVec 12) (width : Nat) (v : Word)
  | regRead (offset : BitVec 12) (width : Nat)
  | memWrite (addr : Nat) (b : Byte)
  | memRead (addr : Nat)
  | wait
  | reset
deriving DecidableEq, Repr

/-- What a host read returned (30_encoding.md R99: "the value is the statement's result"). -/
inductive HostResult where
  | reg (offset : BitVec 12) (v : Word)
  | mem (addr : Nat) (b : Byte)
deriving DecidableEq, Repr

/-- The statements of a host program (30_encoding.md R99) and the pseudo-statements (R100). `cmd DES_ENC` and `cmd DES_DEC` are
`cmd (.desBlock false)` and `cmd (.desBlock true)`. -/
inductive HostStmt where
  | write (r : RegName) (v : Word)
  | writeOffset (offset : BitVec 12) (v : Word)
  | read (r : RegName)
  | mset (addr : Nat) (bytes : Bytes)
  | mget (addr n : Nat)
  | reset
  | cmd (i : Instr)
  | wait
  | run (i : Instr)
  | write64DesKey (v : BitVec 64)
  | write64DesBlk (v : BitVec 64)
  | write128AesKey (v : BitVec 128)
  | write128AesState (v : BitVec 128)
deriving DecidableEq, Repr

end Sys2Proof.Machine
end

