-- ==== Sys2Proof/Machine/State.lean ====
section
/-! DEFINITION. The state of the CORE (10_state.md R22, R52): the register window's storage, STATUS, the engine phase, DMEM and the hazard
mark, with the model's own fields for the host's program and the free choices; and the state after reset (R51, 70_reset_and_hazards.md R282). -/

namespace Sys2Proof.Machine

/-- The outcome of a command, the only values ECODE takes (60_exceptions.md R251). -/
inductive ECode where
  | none | illegalCmd | invalidLength | invalidKey | invalidParam | bounds | overlap
deriving DecidableEq, Repr

/-- The flags of STATUS (10_state.md R25, R47, R52). The reserved bits read 0 and are not stored. -/
structure Status where
  busy : Bool
  done : Bool
  err : Bool
  ecode : ECode
deriving DecidableEq, Repr

/-- The engine phase; `pending w` holds the accepted CMD word (10_state.md R48). -/
inductive Phase where
  | idle
  | pending (w : Word)
deriving DecidableEq, Repr

/-- Four 32-bit registers that hold 16 bytes, AES_KEY0 to AES_KEY3 or AES_STATE0 to AES_STATE3 (10_state.md R40, R41). -/
structure Quad where
  w0 : Word
  w1 : Word
  w2 : Word
  w3 : Word
deriving DecidableEq, Repr

/-- The RW and RO registers of the register window, MEMSIZE and STATUS apart (10_state.md R23, R26 to R43, R52). -/
structure Regs where
  srcAddr : Word
  srcLen : Word
  dstAddr : Word
  outLen : Word
  keyAddr : Word
  keyLen : Word
  ivAddr : Word
  saltAddr : Word
  saltLen : Word
  iter : Word
  dkLen : Word
  desKeyHi : Word
  desKeyLo : Word
  desBlkHi : Word
  desBlkLo : Word
  aesKey : Quad
  aesState : Quad
  desSk : Vector (BitVec 48) 16
  aesRk : Vector Word 44
deriving DecidableEq, Repr

/-- DMEM (20_memory.md R60): the bytes written since the last reset, addresses strictly rising. An address that is not listed holds no
written byte, and reads its DMEM_INIT (R62; log entries 2 and 3). -/
abbrev Memory := List Host.Cell

/-- The state (10_state.md R52). The fields from `epoch` on are the model's own. -/
structure State where
  regs : Regs
  status : Status
  phase : Phase
  /-- MEMSIZE, hardwired to DMEM_SIZE (10_state.md R37). -/
  memsize : Word
  dmem : Memory
  /-- The sticky model-level hazard mark (70_reset_and_hazards.md R290). -/
  hazard : Bool
  /-- Which DMEM_INIT the unwritten bytes read: the number of resets so far (20_memory.md R62; log entry 2). -/
  epoch : Nat
  /-- Host steps left before the pending command's engine step (70_reset_and_hazards.md R295; log entry 5). -/
  delay : Nat
  /-- How many free values have been drawn (log entry 6). -/
  draws : Nat
  /-- The accesses the host has still to make, in its program order (30_encoding.md R99; log entry 4). -/
  host : List HostOp
  /-- What the host's reads returned, oldest first (30_encoding.md R99; log entry 4). -/
  results : List HostResult
deriving DecidableEq, Repr

/-- Why the machine stops with a fault. There is no constructor: no rule of the spec gives an event that stops the CORE, since a failing
command reports in STATUS (60_exceptions.md R254, R255) and a host hazard sets the mark and goes on (R290). Log entry 13. -/
inductive Fault where
deriving DecidableEq, Repr

/-- Why a step has no meaning. -/
inductive Refusal where
  /-- An instruction not modelled yet, raised by a refused arm of `exec` only; safe. No arm raises it. -/
  | notModelled (mnemonic : String)
deriving DecidableEq, Repr

/-- The value of every register after reset: 0 (10_state.md R51). -/
def Regs.reset : Regs where
  srcAddr := 0
  srcLen := 0
  dstAddr := 0
  outLen := 0
  keyAddr := 0
  keyLen := 0
  ivAddr := 0
  saltAddr := 0
  saltLen := 0
  iter := 0
  dkLen := 0
  desKeyHi := 0
  desKeyLo := 0
  desBlkHi := 0
  desBlkLo := 0
  aesKey := ⟨0, 0, 0, 0⟩
  aesState := ⟨0, 0, 0, 0⟩
  desSk := Vector.replicate 16 0
  aesRk := Vector.replicate 44 0

/-- STATUS after reset, 0x00000000 (10_state.md R25, R51). -/
def Status.reset : Status := ⟨false, false, false, .none⟩

/-- The machine right after power-on reset with a DMEM of `memsize` bytes (10_state.md R51, 70_reset_and_hazards.md R282): registers and STATUS
0, MEMSIZE = DMEM_SIZE, phase IDLE, DMEM at DMEM_INIT with nothing written, the hazard mark clear, and no host program (log entries 8 and 9). -/
def State.resetWith (memsize : Word) : State where
  regs := Regs.reset
  status := Status.reset
  phase := .idle
  memsize := memsize
  dmem := []
  hazard := false
  epoch := 0
  delay := 0
  draws := 0
  host := []
  results := []

/-- The machine right after power-on reset, its DMEM_SIZE the open parameter (10_state.md R51; log entry 1). -/
def State.reset : State := State.resetWith Config.dmemSize

end Sys2Proof.Machine
end

