-- ==== Sys2Proof/Machine/Flags.lean ====
section
/-! DEFINITION. The flags (10_state.md R25, R47): STATUS as the host reads it, and its three updates: an accepted CMD write, a completion,
reset (R51, in State.lean). No arithmetic flag exists (R47). -/

namespace Sys2Proof.Machine

/-- The value of ECODE (60_exceptions.md R251). -/
def ecodeByte : ECode → Byte
  | .none => 0x00
  | .illegalCmd => 0x01
  | .invalidLength => 0x02
  | .invalidKey => 0x03
  | .invalidParam => 0x04
  | .bounds => 0x05
  | .overlap => 0x06

/-- STATUS as the host reads it: BUSY bit 0, DONE bit 1, ERR bit 2, ECODE bits 15:8, the rest 0 (10_state.md R25). -/
def statusWord (st : Status) : Word :=
  (BitVec.ofBool st.busy).setWidth 32 ||| ((BitVec.ofBool st.done).setWidth 32 <<< 1)
    ||| ((BitVec.ofBool st.err).setWidth 32 <<< 2) ||| ((ecodeByte st.ecode).setWidth 32 <<< 8)

/-- STATUS after an accepted CMD write: BUSY set, DONE, ERR and ECODE cleared (60_exceptions.md R250). -/
def acceptedStatus : Status := ⟨true, false, false, .none⟩

/-- STATUS after a completion: BUSY cleared, DONE set, ERR and ECODE from the outcome (60_exceptions.md R251). -/
def completedStatus (outcome : ECode) : Status := ⟨false, true, outcome ≠ .none, outcome⟩

end Sys2Proof.Machine
end

