-- ==== Sys2Proof/Machine/Ops.lean ====
section
/-! DEFINITION. The named operations over DMEM, the registers and STATUS: DMEM bytes (20_memory.md R15, R60, R62), ranges (R66, R67), the
engine's register updates (10_state.md R46), and the one shared completion of a command, with or without an error (60_exceptions.md R251,
R254, R255), beside the acceptance that clears its report (R250, R256). -/

namespace Sys2Proof.Machine

/-- The byte written at an address since the last reset, or none: what an unlisted address holds (log entry 3). -/
def memFind : Memory → Nat → Option Byte
  | [], _ => none
  | (k, v) :: rest, a => if k = a then some v else memFind rest a

/-- The memory with one byte written, addresses kept strictly rising (20_memory.md R15). -/
def memInsert : Memory → Nat → Byte → Memory
  | [], a, b => [(a, b)]
  | (k, v) :: rest, a, b =>
    if a < k then (a, b) :: (k, v) :: rest
    else if a = k then (a, b) :: rest
    else (k, v) :: memInsert rest a b

/-- `MemWrite(a, len(bs), bs)` on the memory (00_scope.md R15). -/
def memInsertAll : Memory → Nat → Bytes → Memory
  | m, _, [] => m
  | m, a, b :: bs => memInsertAll (memInsert m a b) (a + 1) bs

/-- The canonical form of DMEM of `size` bytes: addresses strictly rising, none at or beyond `size` (20_memory.md R60; log entry 3). -/
abbrev Memory.wf (size : Nat) (m : Memory) : Prop :=
  m.Pairwise (fun c d => c.1 < d.1) ∧ ∀ c ∈ m, c.1 < size

/-- `DMEM_SIZE` (20_memory.md R60; 10_state.md R37). -/
def State.dmemSize (s : State) : Nat := s.memsize.toNat

/-- The byte DMEM holds at an address: the byte last written since reset, else its DMEM_INIT (20_memory.md R62). -/
def State.readByte (s : State) (a : Nat) : Byte := (memFind s.dmem a).getD (Config.dmemInit s.epoch a)

/-- `MemRead(a, n)` (00_scope.md R15). -/
def State.memRead (s : State) (a n : Nat) : Bytes := (List.range n).map fun k => s.readByte (a + k)

/-- `MemWrite(a, len(bs), bs)` (00_scope.md R15). -/
def State.memWrite (s : State) (a : Nat) (bs : Bytes) : State := { s with dmem := memInsertAll s.dmem a bs }

/-- The range `[a, a+n)` is in bounds when `a + n ≤ DMEM_SIZE`, in unbounded integers (20_memory.md R66). -/
def inBounds (size : Nat) (r : Nat × Nat) : Bool := r.1 + r.2 ≤ size

/-- Two ranges overlap when both have bytes and share an address (20_memory.md R67). -/
def overlap (r q : Nat × Nat) : Bool := 0 < r.2 && 0 < q.2 && r.1 < q.1 + q.2 && q.1 < r.1 + r.2

/-- The storage of the registers replaced. -/
def State.setRegs (s : State) (r : Regs) : State := { s with regs := r }

/-- OUT_LEN written (10_state.md R29). -/
def Regs.setOutLen (r : Regs) (v : Word) : Regs := { r with outLen := v }

/-- DES_BLK written, `DES_BLK_HI ‖ DES_BLK_LO` (10_state.md R39). -/
def Regs.setDesBlk (r : Regs) (hi lo : Word) : Regs := { r with desBlkHi := hi, desBlkLo := lo }

/-- DES_SK[0..15] written (10_state.md R42). -/
def Regs.setDesSk (r : Regs) (sk : Vector (BitVec 48) 16) : Regs := { r with desSk := sk }

/-- AES_STATE0 to AES_STATE3 written (10_state.md R41). -/
def Regs.setAesState (r : Regs) (q : Quad) : Regs := { r with aesState := q }

/-- AES_RK[0..43] written (10_state.md R43). -/
def Regs.setAesRk (r : Regs) (w : Vector Word 44) : Regs := { r with aesRk := w }

/-- The key-bearing registers set to 0 (48_control.md R241). -/
def Regs.cleared (r : Regs) : Regs :=
  { r with
    desKeyHi := 0, desKeyLo := 0, desBlkHi := 0, desBlkLo := 0, desSk := Vector.replicate 16 0,
    aesKey := ⟨0, 0, 0, 0⟩, aesState := ⟨0, 0, 0, 0⟩, aesRk := Vector.replicate 44 0 }

/-- Completion with an outcome: STATUS reports it and the phase becomes IDLE (60_exceptions.md R251). -/
def State.complete (s : State) (outcome : ECode) : State :=
  { s with status := completedStatus outcome, phase := .idle }

/-- `complete OK` (60_exceptions.md R251). -/
def State.completeOk (s : State) : State := s.complete .none

/-- TAKING AN EXCEPTION, `raise Error(code)`: exactly the STATUS update of R251; no state is saved, no mode or mask changes and control goes
nowhere (00_scope.md R16; 60_exceptions.md R254, R255). -/
def State.raise (s : State) (code : ECode) : State := s.complete code

/-- A command's outcome committed: its writes and `complete OK`, or nothing of it but the error's report (60_exceptions.md R251, R254). -/
def State.commit (s : State) : Except ECode State → State
  | .ok t => t.completeOk
  | .error code => s.raise code

/-- An accepted write of `w` to CMD (60_exceptions.md R250). There is no return-from-trap operation: this acceptance is what clears an error's
report (R256). How long the command stays pending is a free value (70_reset_and_hazards.md R295; log entry 5). -/
def State.accept (s : State) (w : Word) : State :=
  { s with phase := .pending w, status := acceptedStatus, delay := Config.latency s.draws, draws := s.draws + 1 }

/-- The CORE's reset (70_reset_and_hazards.md R280, R281): every register at its reset value, STATUS 0, phase IDLE, a new DMEM_INIT, the
hazard mark clear, MEMSIZE as hardwired. The host's own program goes on (log entry 9). -/
def State.coreReset (s : State) : State :=
  { s with regs := Regs.reset, status := Status.reset, phase := .idle, dmem := [], hazard := false, epoch := s.epoch + 1, delay := 0 }

/-- The first error of a list of conditions, in the order of 60_exceptions.md R253. -/
def firstError : List (Bool × ECode) → Option ECode
  | [] => none
  | (failed, code) :: rest => if failed then some code else firstError rest

end Sys2Proof.Machine
end

