-- ==== Sys2Proof/Machine/Operands.lean ====
section
/-! DEFINITION. The operands of the commands (30_encoding.md R92; 10_state.md R38 to R43, R46): the register operands as keys, blocks, states
and round keys, and the DMEM ranges of the buffer commands with their checks (20_memory.md R66 to R68). -/

namespace Sys2Proof.Machine

/-- `K = DES_KEY_HI ‖ DES_KEY_LO` (10_state.md R38). -/
def Regs.desKey (r : Regs) : BitVec 64 := r.desKeyHi ++ r.desKeyLo

/-- `B = DES_BLK_HI ‖ DES_BLK_LO` (10_state.md R39). -/
def Regs.desBlk (r : Regs) : BitVec 64 := r.desBlkHi ++ r.desBlkLo

/-- The subkey `SK[IDX]` of DES_ROUND (30_encoding.md R94). -/
def Regs.subkey (r : Regs) (idx : BitVec 4) : BitVec 48 := r.desSk[idx.toFin]

/-- The four registers by number. -/
def quadGet (q : Quad) (i : Fin 4) : Word :=
  match i with
  | 0 => q.w0
  | 1 => q.w1
  | 2 => q.w2
  | 3 => q.w3

/-- One of the four registers replaced. -/
def quadSet (q : Quad) (i : Fin 4) (v : Word) : Quad :=
  match i with
  | 0 => { q with w0 := v }
  | 1 => { q with w1 := v }
  | 2 => { q with w2 := v }
  | 3 => { q with w3 := v }

/-- The 16 bytes the four registers hold: byte `4·c + r` is `[31−8r : 24−8r]` of register `c` (10_state.md R40, R41). -/
def quadBytes (q : Quad) : Bytes := bitsToBytes q.w0 ++ bitsToBytes q.w1 ++ bitsToBytes q.w2 ++ bitsToBytes q.w3

/-- The four registers that hold 16 bytes (10_state.md R41). -/
def bytesQuad (b : Bytes) : Quad := ⟨wordAt b 0, wordAt b 4, wordAt b 8, wordAt b 12⟩

/-- The range `[a, a+n)` of an address register and a length. -/
def rangeOf (addr : Word) (n : Nat) : Nat × Nat := (addr.toNat, n)

/-- The checks every buffer command makes of its ranges, in order: each range inside DMEM, then the destination apart from every source
(20_memory.md R66 to R68; 60_exceptions.md R253). -/
def rangeErrors (size : Nat) (dst : Nat × Nat) (sources : List (Nat × Nat)) : List (Bool × ECode) :=
  [ (!(sources.all (inBounds size) && inBounds size dst), .bounds),
    (sources.any (overlap dst), .overlap) ]

/-- A buffer command: the first failing check's error, or the function's own error, or the bytes written at the destination and their number
in OUT_LEN (10_state.md R29; 60_exceptions.md R253, R254). -/
def State.bufferCommand (s : State) (checks : List (Bool × ECode)) (dst : Nat) (out : Except ECode Bytes) : Except ECode State :=
  match firstError checks with
  | some code => .error code
  | none =>
    match out with
    | .error code => .error code
    | .ok bytes => .ok ((s.memWrite dst bytes).setRegs (s.regs.setOutLen (BitVec.ofNat 32 bytes.length)))

end Sys2Proof.Machine
end

