-- ==== Sys2Proof/Machine/Aes.lean ====
section
/-! DEFINITION. AES-128: GF(2^8), the S-box, key expansion, the four transforms, the block cipher, and the register commands AES_KEYEXP,
AES_SUBBYTES, AES_SHIFTROWS, AES_MIXCOLUMNS, AES_ADDRK and AES_BLOCK_ENC (45_aes_key_expansion.md R200 to R204; 46_aes_block.md R210 to R220). -/

namespace Sys2Proof.Machine

/-- Multiplication by 0x02 in GF(2^8) modulo 0x11B (45_aes_key_expansion.md R200). -/
def xtime (a : Byte) : Byte := (a <<< 1) ^^^ (if a.getLsbD 7 then 0x1B else 0x00)

/-- Multiplication by 0x03 (45_aes_key_expansion.md R200). -/
def mul3 (a : Byte) : Byte := xtime a ^^^ a

/-- `SBOX_AES[x]`, row the high nibble and column the low nibble (45_aes_key_expansion.md R201). -/
def sboxAes (x : Byte) : Byte :=
  BitVec.ofNat 8 ((sboxAesTable.getD (x.toNat / 16) []).getD (x.toNat % 16) 0)

/-- `Rcon(k) = RCON[k] ‖ 0x00 ‖ 0x00 ‖ 0x00`, k from 1 (45_aes_key_expansion.md R202). -/
def rconWord (k : Nat) : Word := rconTable.getD (k - 1) 0 ++ (0 : BitVec 24)

/-- `rotWord(w) = rotl_32(w, 8)` (45_aes_key_expansion.md R203). -/
def rotWord (w : Word) : Word := w.rotateLeft 8

/-- `subWord(w)`: the S-box on each of the four bytes (45_aes_key_expansion.md R203). -/
def subWord (w : Word) : Word := bytesToBits 32 ((bitsToBytes w).map sboxAes)

/-- The word `W[i]` from `W[i−4]` and `W[i−1]` (45_aes_key_expansion.md R203). -/
def keyWord (i : Nat) (back4 back1 : Word) : Word :=
  back4 ^^^ (if i % 4 = 0 then subWord (rotWord back1) ^^^ rconWord (i / 4) else back1)

/-- The words `W[i], …` for `count` more indices, given the last four words, oldest first (45_aes_key_expansion.md R203). -/
def keyWords : Nat → Nat → Word → Word → Word → Word → List Word
  | 0, _, _, _, _, _ => []
  | count + 1, i, a, b, c, d => keyWord i a d :: keyWords count (i + 1) b c d (keyWord i a d)

theorem keyWords_length (count i : Nat) (a b c d : Word) : (keyWords count i a b c d).length = count := by
  induction count generalizing i a b c d with
  | zero => rfl
  | succ _ ih => simp [keyWords, ih]

/-- `keyExpansion` of the four key words `W[0..3]` (45_aes_key_expansion.md R203). -/
def keyExpansionWords (q : Quad) : Vector Word 44 :=
  ⟨([q.w0, q.w1, q.w2, q.w3] ++ keyWords 40 4 q.w0 q.w1 q.w2 q.w3).toArray, by simp [keyWords_length]⟩

/-- `keyExpansion(key)` of 16 key bytes (45_aes_key_expansion.md R203). -/
def keyExpansion (key : Bytes) : Vector Word 44 := keyExpansionWords (bytesQuad key)

/-- `subBytes(s)` (46_aes_block.md R211). -/
def subBytes (s : Bytes) : Bytes := s.map sboxAes

/-- `shiftRows(s)`: `s'[r + 4c] = s[r + 4·((c + r) mod 4)]` (46_aes_block.md R212). -/
def shiftRows (s : Bytes) : Bytes :=
  (List.range 16).map fun k => s.getD (k % 4 + 4 * ((k / 4 + k % 4) % 4)) 0

/-- One column of `mixColumns` (46_aes_block.md R213). -/
def mixColumn (a0 a1 a2 a3 : Byte) : Bytes :=
  [ xtime a0 ^^^ mul3 a1 ^^^ a2 ^^^ a3,
    a0 ^^^ xtime a1 ^^^ mul3 a2 ^^^ a3,
    a0 ^^^ a1 ^^^ xtime a2 ^^^ mul3 a3,
    mul3 a0 ^^^ a1 ^^^ a2 ^^^ xtime a3 ]

/-- `mixColumns(s)`, each column on its own (46_aes_block.md R213). -/
def mixColumns (s : Bytes) : Bytes :=
  (List.range 4).flatMap fun c =>
    mixColumn (s.getD (4 * c) 0) (s.getD (4 * c + 1) 0) (s.getD (4 * c + 2) 0) (s.getD (4 * c + 3) 0)

/-- The word `W[j]` of a round-key file (10_state.md R43). -/
def roundKeyWord (w : Vector Word 44) (j : Nat) : Word := w.toList.getD j 0

/-- `addRoundKey(s, W, r)`: `s'[4c + k] = s[4c + k] xor W[4r + c][31−8k : 24−8k]` (46_aes_block.md R214). -/
def addRoundKey (s : Bytes) (w : Vector Word 44) (r : Nat) : Bytes :=
  (List.range 16).map fun j => s.getD j 0 ^^^ wordByte (roundKeyWord w (4 * r + j / 4)) (j % 4)

/-- `aesEncryptBlock(b, W)`: round key 0, nine full rounds, a last round without MixColumns (46_aes_block.md R215). -/
def aesEncryptBlock (b : Bytes) (w : Vector Word 44) : Bytes :=
  let s := (List.range 9).foldl (fun s i => addRoundKey (mixColumns (shiftRows (subBytes s))) w (i + 1)) (addRoundKey b w 0)
  addRoundKey (shiftRows (subBytes s)) w 10

/-- AES_STATE replaced by a function of its 16 bytes (46_aes_block.md R210). -/
def State.onAesState (s : State) (f : Bytes → Bytes) : State :=
  s.setRegs (s.regs.setAesState (bytesQuad (f (quadBytes s.regs.aesState))))

/-- AES_KEYEXP: AES_RK from AES_KEY (45_aes_key_expansion.md R204). -/
def execAesKeyexp (s : State) : Host.Outcome State Fault Refusal :=
  .next (s.commit (.ok (s.setRegs (s.regs.setAesRk (keyExpansion (quadBytes s.regs.aesKey))))))

/-- AES_SUBBYTES (46_aes_block.md R216). -/
def execAesSubbytes (s : State) : Host.Outcome State Fault Refusal := .next (s.commit (.ok (s.onAesState subBytes)))

/-- AES_SHIFTROWS (46_aes_block.md R217). -/
def execAesShiftrows (s : State) : Host.Outcome State Fault Refusal := .next (s.commit (.ok (s.onAesState shiftRows)))

/-- AES_MIXCOLUMNS (46_aes_block.md R218). -/
def execAesMixcolumns (s : State) : Host.Outcome State Fault Refusal := .next (s.commit (.ok (s.onAesState mixColumns)))

/-- AES_ADDRK: round key IDX xored into AES_STATE (46_aes_block.md R219). IDX 11 to 15 raises ILLEGAL_CMD (30_encoding.md R94; log entry 11). -/
def execAesAddrk (idx : BitVec 4) (s : State) : Host.Outcome State Fault Refusal :=
  if idx.toNat ≤ 10 then .next (s.commit (.ok (s.onAesState fun b => addRoundKey b s.regs.aesRk idx.toNat)))
  else .next (s.commit (.error .illegalCmd))

/-- AES_BLOCK_ENC: AES_STATE encrypted with AES_RK (46_aes_block.md R220). -/
def execAesBlockEnc (s : State) : Host.Outcome State Fault Refusal :=
  .next (s.commit (.ok (s.onAesState fun b => aesEncryptBlock b s.regs.aesRk)))

end Sys2Proof.Machine
end

