-- ==== Sys2Proof/Machine/AesCbc.lean ====
section
/-! DEFINITION. The AES-CBC chaining controller with PKCS7 padding and its command AES_CBC_ENC (47_aes_cbc.md R230 to R235). -/

namespace Sys2Proof.Machine

/-- `pkcs7Pad(p, bs)` (47_aes_cbc.md R230). -/
def pkcs7Pad (p : Bytes) (bs : Nat) : Bytes :=
  p ++ List.replicate (bs - p.length % bs) (BitVec.ofNat 8 (bs - p.length % bs))

/-- The chaining over the padded blocks: `c = aesEncryptBlock(block xor prev, W)`, then `prev = c` (47_aes_cbc.md R231). -/
def cbcChain (w : Vector Word 44) : Bytes → List Bytes → Bytes
  | _, [] => []
  | prev, q :: rest =>
    let c := aesEncryptBlock (xorBytes q prev) w
    c ++ cbcChain w c rest

/-- `aesCbcEncrypt(p, key, iv)`; the IV is not part of the output (47_aes_cbc.md R231). -/
def aesCbcEncrypt (p key iv : Bytes) : Bytes :=
  let q := pkcs7Pad p 16
  cbcChain (keyExpansion key) iv (blocks 16 (q.length / 16) q)

/-- `N = 16·(floor(n/16) + 1)`, in unbounded integers (47_aes_cbc.md R232). -/
def cbcLength (n : Nat) : Nat := 16 * (n / 16 + 1)

/-- The checks of AES_CBC_ENC, in order (47_aes_cbc.md R232, R233; 60_exceptions.md R253). -/
def aesCbcChecks (s : State) : List (Bool × ECode) :=
  let n := s.regs.srcLen.toNat
  (s.regs.keyLen.toNat < 16, .invalidKey)
  :: rangeErrors s.dmemSize (rangeOf s.regs.dstAddr (cbcLength n))
       [rangeOf s.regs.srcAddr n, rangeOf s.regs.keyAddr 16, rangeOf s.regs.ivAddr 16]

/-- AES_CBC_ENC (47_aes_cbc.md R233). -/
def execAesCbcEnc (s : State) : Host.Outcome State Fault Refusal :=
  let p := s.memRead s.regs.srcAddr.toNat s.regs.srcLen.toNat
  let key := s.memRead s.regs.keyAddr.toNat 16
  let iv := s.memRead s.regs.ivAddr.toNat 16
  .next (s.commit (s.bufferCommand (aesCbcChecks s) s.regs.dstAddr.toNat (.ok (aesCbcEncrypt p key iv))))

end Sys2Proof.Machine
end

