-- ==== Sys2Proof/Machine/Control.lean ====
section
/-! DEFINITION. The control commands NOP and CLEAR (48_control.md R240, R241). No system instruction exists (R242). -/

namespace Sys2Proof.Machine

/-- NOP: complete without effect (48_control.md R240). -/
def execNop (s : State) : Host.Outcome State Fault Refusal := .next (s.commit (.ok s))

/-- CLEAR: erase the key-bearing registers (48_control.md R241). -/
def execClear (s : State) : Host.Outcome State Fault Refusal := .next (s.commit (.ok (s.setRegs s.regs.cleared)))

end Sys2Proof.Machine
end

