-- ==== Sys2Proof/Machine/Des.lean ====
section
/-! DEFINITION. DES: the S-boxes, the round function, the key schedule, one round, one block, and the register commands DES_KS, DES_ROUND and
DES_BLOCK (40_des_primitives.md R119, R128; 41_des_key_schedule.md R140, R142; 42_des_feistel.md R150 to R154). -/

namespace Sys2Proof.Machine

/-- `SBOX[i][row·16 + col]` (40_des_primitives.md R119). -/
def sboxEntry (i row col : Nat) : Nat := (((sboxes.getD i []).getD row []).getD col 0)

/-- The nibble of chunk `i`: row from the chunk's first and last bit, column from its middle four (40_des_primitives.md R119). -/
def sboxNibble (x : BitVec 48) (i : Nat) : Nat :=
  sboxEntry i
    (bitsToNat [tablePos x (6 * i + 1), tablePos x (6 * i + 6)])
    (bitsToNat [tablePos x (6 * i + 2), tablePos x (6 * i + 3), tablePos x (6 * i + 4), tablePos x (6 * i + 5)])

/-- The DES substitution, chunk 0 in the most significant nibble (40_des_primitives.md R119). -/
def sbox (x : BitVec 48) : BitVec 32 :=
  BitVec.ofNat 32 ((List.range 8).foldl (fun acc i => 16 * acc + sboxNibble x i) 0)

/-- The round function `f(r, k) = permute(sbox(permute(r, E) xor k), P)` (40_des_primitives.md R128). -/
def feistelRound (r : BitVec 32) (k : BitVec 48) : BitVec 32 := permute 32 (sbox (permute 48 r tableE ^^^ k)) tableP

/-- The rounds of the key schedule for the shifts that remain: rotate C and D, then PC-2 (41_des_key_schedule.md R140). -/
def keyRounds : List Nat → BitVec 28 → BitVec 28 → List (BitVec 48)
  | [], _, _ => []
  | shift :: rest, c, d =>
    permute 48 (c.rotateLeft shift ++ d.rotateLeft shift) tablePC2
      :: keyRounds rest (c.rotateLeft shift) (d.rotateLeft shift)

theorem keyRounds_length (ss : List Nat) (c d : BitVec 28) : (keyRounds ss c d).length = ss.length := by
  induction ss generalizing c d with
  | nil => rfl
  | cons _ _ ih => simp [keyRounds, ih]

/-- `keySchedule(key)`: the sixteen subkeys, round 0 first (41_des_key_schedule.md R140). -/
def keySchedule (key : BitVec 64) : Vector (BitVec 48) 16 :=
  ⟨(keyRounds shifts ((permute 56 key tablePC1).extractLsb' 28 28) ((permute 56 key tablePC1).extractLsb' 0 28)).toArray,
    by simp [keyRounds_length, shifts]⟩

/-- One Feistel round: `(L, R)` becomes `(R, L xor f(R, k))` (42_des_feistel.md R150). -/
def desRound (l r : BitVec 32) (k : BitVec 48) : BitVec 32 × BitVec 32 := (r, l ^^^ feistelRound r k)

/-- The subkeys in order of use: `idx = decrypt ? 15-i : i` (42_des_feistel.md R151; 30_encoding.md R93). -/
def subkeyOrder (sk : Vector (BitVec 48) 16) (decrypt : Bool) : List (BitVec 48) :=
  if decrypt then sk.toList.reverse else sk.toList

/-- `desBlock(block, SK, decrypt)`: IP, sixteen rounds, FP of `R ‖ L`; the one routine for both directions (42_des_feistel.md R151, R154). -/
def desBlock (block : BitVec 64) (sk : Vector (BitVec 48) 16) (decrypt : Bool) : BitVec 64 :=
  let x := permute 64 block tableIP
  let lr := (subkeyOrder sk decrypt).foldl (fun p k => desRound p.1 p.2 k) (x.extractLsb' 32 32, x.extractLsb' 0 32)
  permute 64 (lr.2 ++ lr.1) tableFP

/-- `desBlock` as a function of 8 bytes (42_des_feistel.md R151). -/
def desBlockBytes (b : Bytes) (sk : Vector (BitVec 48) 16) (decrypt : Bool) : Bytes :=
  bitsToBytes (desBlock (bytesToBits 64 b) sk decrypt)

/-- DES_KS: the subkeys of DES_KEY (41_des_key_schedule.md R142). -/
def execDesKs (s : State) : Host.Outcome State Fault Refusal :=
  .next (s.commit (.ok (s.setRegs (s.regs.setDesSk (keySchedule s.regs.desKey)))))

/-- DES_ROUND: one Feistel round of DES_BLK with `SK[IDX]`, without IP and FP (42_des_feistel.md R152). -/
def execDesRound (idx : BitVec 4) (s : State) : Host.Outcome State Fault Refusal :=
  let lr := desRound s.regs.desBlkHi s.regs.desBlkLo (s.regs.subkey idx)
  .next (s.commit (.ok (s.setRegs (s.regs.setDesBlk lr.1 lr.2))))

/-- DES_BLOCK: DES_BLK encrypted (DIR = 0) or decrypted (DIR = 1) with DES_SK (42_des_feistel.md R153). -/
def execDesBlock (decrypt : Bool) (s : State) : Host.Outcome State Fault Refusal :=
  let b := desBlock s.regs.desBlk s.regs.desSk decrypt
  .next (s.commit (.ok (s.setRegs (s.regs.setDesBlk (b.extractLsb' 32 32) (b.extractLsb' 0 32)))))

end Sys2Proof.Machine
end

