-- ==== Sys2Proof/Machine/DesEcb.lean ====
section
/-! DEFINITION. The DES-ECB multi-block driver with lenient PKCS7 unpadding and its command DES_ECB_DEC (43_des_ecb.md R160 to R165). -/

namespace Sys2Proof.Machine

/-- `pkcs7UnpadLenient(p, bs)`: only the last byte is inspected (43_des_ecb.md R160, R164). -/
def pkcs7UnpadLenient (p : Bytes) (bs : Nat) : Bytes :=
  let v := (p.getLast?.getD 0).toNat
  if 1 ≤ v ∧ v ≤ bs then p.take (p.length - v) else p

/-- Every 8-byte block decrypted independently (43_des_ecb.md R161). -/
def desEcbBlocks (ct : Bytes) (sk : Vector (BitVec 48) 16) : Bytes :=
  (blocks 8 (ct.length / 8) ct).flatMap fun b => desBlockBytes b sk true

/-- `desEcbDecrypt(ct, keymat)`: the length check, the key check, the blocks, the lenient unpadding (43_des_ecb.md R161). -/
def desEcbDecrypt (ct keymat : Bytes) : Except ECode Bytes :=
  if ct.length = 0 ∨ ct.length % 8 ≠ 0 then .error .invalidLength
  else if keymat.length < 8 then .error .invalidKey
  else .ok (pkcs7UnpadLenient (desEcbBlocks ct (keySchedule (bytesToBits 64 (keymat.take 8)))) 8)

/-- The checks of DES_ECB_DEC, in order (43_des_ecb.md R162, R163; 60_exceptions.md R253). -/
def desEcbChecks (s : State) : List (Bool × ECode) :=
  let n := s.regs.srcLen.toNat
  (n = 0 ∨ n % 8 ≠ 0, .invalidLength)
  :: (s.regs.keyLen.toNat < 8, .invalidKey)
  :: rangeErrors s.dmemSize (rangeOf s.regs.dstAddr n) [rangeOf s.regs.srcAddr n, rangeOf s.regs.keyAddr 8]

/-- DES_ECB_DEC (43_des_ecb.md R163). The stripped padding is not written. -/
def execDesEcbDec (s : State) : Host.Outcome State Fault Refusal :=
  let ct := s.memRead s.regs.srcAddr.toNat s.regs.srcLen.toNat
  let key := s.memRead s.regs.keyAddr.toNat 8
  .next (s.commit (s.bufferCommand (desEcbChecks s) s.regs.dstAddr.toNat (desEcbDecrypt ct key)))

end Sys2Proof.Machine
end

