-- ==== Sys2Proof/WellFormed.lean ====
section
/-! DEFINITION. Which commands a legal word can carry: the only operand condition of the opcode table beyond the field widths is
AES_ADDRK's IDX ≤ 10 (30_encoding.md R94, R95). -/

namespace Sys2Proof

/-- The operand condition of a command's row (30_encoding.md R95). The widths and the fields that must be 0 are in the constructors already. -/
def Instr.wellFormed : Instr → Bool
  | .nop => true
  | .desKs => true
  | .desRound _ => true
  | .desBlock _ => true
  | .desEcbDec => true
  | .aesKeyexp => true
  | .aesSubbytes => true
  | .aesShiftrows => true
  | .aesMixcolumns => true
  | .aesAddrk idx => idx.toNat ≤ 10
  | .aesBlockEnc => true
  | .aesCbcEnc => true
  | .pbkdf2 => true
  | .clear => true

end Sys2Proof
end

