-- ==== Sys2Proof/Decode.lean ====
section
/-! DEFINITION. The command word (30_encoding.md R90 to R98): fields, the opcode table, decoding by it, and the encoder. A command is one
32-bit word written to CMD and never comes from bytes of memory (R79, R91), so the decoder takes a word. -/

namespace Sys2Proof

/-- `OP = CMD[7:0]` (30_encoding.md R90). -/
def opField (w : Word) : BitVec 8 := w.extractLsb' 0 8

/-- `DIR = CMD[8]` (30_encoding.md R90, R92). -/
def dirField (w : Word) : Bool := w.getLsbD 8

/-- `IDX = CMD[15:12]` (30_encoding.md R90, R92). -/
def idxField (w : Word) : BitVec 4 := w.extractLsb' 12 4

/-- Whether the reserved fields `w[31:16]` and `w[11:9]` are 0 (30_encoding.md R95). -/
def reservedZero (w : Word) : Bool := w &&& 0xFFFF0E00 = 0

/-- One row of the opcode table (30_encoding.md R96): the word matches when `(w and mask) = bits`; `build` takes the operand fields and
applies the row's extra condition. -/
structure OpcodeRow where
  mnemonic : String
  bits : Word
  mask : Word
  build : Word → Option Instr

/-- AES_ADDRK's extra condition IDX ≤ 10 (30_encoding.md R94, R96). -/
def buildAddrk (w : Word) : Option Instr :=
  if (idxField w).toNat ≤ 10 then some (.aesAddrk (idxField w)) else none

/-- The rows of DES and of the control command NOP (30_encoding.md R96). -/
def opcodeRowsDes : List OpcodeRow :=
  [ { mnemonic := "NOP",         bits := 0x00000000, mask := 0xFFFFFFFF, build := fun _ => some .nop },
    { mnemonic := "DES_KS",      bits := 0x00000001, mask := 0xFFFFFFFF, build := fun _ => some .desKs },
    { mnemonic := "DES_ROUND",   bits := 0x00000002, mask := 0xFFFF0FFF, build := fun w => some (.desRound (idxField w)) },
    { mnemonic := "DES_BLOCK",   bits := 0x00000003, mask := 0xFFFFFEFF, build := fun w => some (.desBlock (dirField w)) },
    { mnemonic := "DES_ECB_DEC", bits := 0x00000004, mask := 0xFFFFFFFF, build := fun _ => some .desEcbDec } ]

/-- The rows of AES, PBKDF2 and CLEAR (30_encoding.md R96). -/
def opcodeRowsAes : List OpcodeRow :=
  [ { mnemonic := "AES_KEYEXP",     bits := 0x00000010, mask := 0xFFFFFFFF, build := fun _ => some .aesKeyexp },
    { mnemonic := "AES_SUBBYTES",   bits := 0x00000011, mask := 0xFFFFFFFF, build := fun _ => some .aesSubbytes },
    { mnemonic := "AES_SHIFTROWS",  bits := 0x00000012, mask := 0xFFFFFFFF, build := fun _ => some .aesShiftrows },
    { mnemonic := "AES_MIXCOLUMNS", bits := 0x00000013, mask := 0xFFFFFFFF, build := fun _ => some .aesMixcolumns },
    { mnemonic := "AES_ADDRK",      bits := 0x00000014, mask := 0xFFFF0FFF, build := buildAddrk },
    { mnemonic := "AES_BLOCK_ENC",  bits := 0x00000015, mask := 0xFFFFFFFF, build := fun _ => some .aesBlockEnc },
    { mnemonic := "AES_CBC_ENC",    bits := 0x00000016, mask := 0xFFFFFFFF, build := fun _ => some .aesCbcEnc },
    { mnemonic := "PBKDF2",         bits := 0x00000020, mask := 0xFFFFFFFF, build := fun _ => some .pbkdf2 },
    { mnemonic := "CLEAR",          bits := 0x00000030, mask := 0xFFFFFFFF, build := fun _ => some .clear } ]

/-- The opcode table, in the order of 30_encoding.md R96. -/
def opcodeTable : List OpcodeRow := opcodeRowsDes ++ opcodeRowsAes

/-- `(w and mask) = match`, without the row's extra condition (30_encoding.md R97). -/
def rowMatches (r : OpcodeRow) (w : Word) : Bool := w &&& r.mask = r.bits

/-- What one row makes of a word: the command, or none where mask and match or the extra condition fail (30_encoding.md R97). -/
def rowDecode (w : Word) (r : OpcodeRow) : Option Instr :=
  if rowMatches r w then r.build w else none

/-- The ways a word is ILLEGAL (30_encoding.md R95, R98). All of them raise the one code ILLEGAL_CMD (R252). -/
inductive IllegalReason where
  /-- OP is none of the fourteen (R98). -/
  | unknownOp
  /-- `w[31:16]` or `w[11:9]` is not 0. -/
  | reservedField
  /-- DIR is 1 on a command that has no direction. -/
  | dirNotAllowed
  /-- IDX is not 0 on a command that has no index. -/
  | idxNotAllowed
  /-- AES_ADDRK with IDX 11 to 15 (R94). -/
  | idxOutOfRange
deriving DecidableEq, Repr

/-- A name for why a word that no row takes is illegal (30_encoding.md R95); where several reasons hold, the first of this list. -/
def illegalReason (w : Word) : IllegalReason :=
  if !(opcodeTable.any fun r => r.bits.extractLsb' 0 8 = opField w) then .unknownOp
  else if !reservedZero w then .reservedField
  else if dirField w && opField w ≠ 0x03 then .dirNotAllowed
  else if idxField w ≠ 0 && opField w ≠ 0x02 && opField w ≠ 0x14 then .idxNotAllowed
  else .idxOutOfRange

/-- Decoding (30_encoding.md R97): the command of the first row that takes the word, or the reason no row does. -/
def decode (w : Word) : Except IllegalReason Instr :=
  match opcodeTable.findSome? (rowDecode w) with
  | some i => .ok i
  | none => .error (illegalReason w)

/-- The word a host writes to CMD to issue a command (30_encoding.md R96, R100). -/
def encode : Instr → Word
  | .nop => 0x00000000
  | .desKs => 0x00000001
  | .desRound idx => 0x00000002 ||| (idx.setWidth 32 <<< 12)
  | .desBlock decrypt => 0x00000003 ||| ((BitVec.ofBool decrypt).setWidth 32 <<< 8)
  | .desEcbDec => 0x00000004
  | .aesKeyexp => 0x00000010
  | .aesSubbytes => 0x00000011
  | .aesShiftrows => 0x00000012
  | .aesMixcolumns => 0x00000013
  | .aesAddrk idx => 0x00000014 ||| (idx.setWidth 32 <<< 12)
  | .aesBlockEnc => 0x00000015
  | .aesCbcEnc => 0x00000016
  | .pbkdf2 => 0x00000020
  | .clear => 0x00000030

/-- The command word made of the `nbits` low bits of `w`, the bits above them 0 (the table gives every row all 32 bits). -/
def tableWord (nbits w : Nat) : Word := BitVec.ofNat 32 (w % 2 ^ nbits)

/-- What the decoder reads from an instruction whose bits, numbered as spec/opcode_table.json numbers them, are `w`. A command is one
32-bit word (30_encoding.md R91), so a longer bit string is none. -/
def decodeTableWord (nbits w : Nat) : Option Instr :=
  if w % 2 ^ nbits < 2 ^ 32 then (decode (tableWord nbits w)).toOption else none

end Sys2Proof
end

