-- ==== Sys2Proof/Machine/HostPort.lean ====
section
/-! DEFINITION. The host's side of the CORE: the register window (10_state.md R23, R44, R45), its reads and writes and the host's DMEM byte
port, with the hazard rules (70_reset_and_hazards.md R290, R291), one host access as a step, and the expansion of host statements
(30_encoding.md R99, R100). -/

namespace Sys2Proof.Machine

/-- The offset of a register (10_state.md R23). -/
def regOffset : RegName → BitVec 12
  | .cmd => 0x000
  | .status => 0x004
  | .srcAddr => 0x008
  | .srcLen => 0x00C
  | .dstAddr => 0x010
  | .outLen => 0x014
  | .keyAddr => 0x018
  | .keyLen => 0x01C
  | .ivAddr => 0x020
  | .saltAddr => 0x024
  | .saltLen => 0x028
  | .iter => 0x02C
  | .dkLen => 0x030
  | .memsize => 0x034
  | .desKeyHi => 0x040
  | .desKeyLo => 0x044
  | .desBlkHi => 0x048
  | .desBlkLo => 0x04C
  | .aesKey i => BitVec.ofNat 12 (0x050 + 4 * i.val)
  | .aesState i => BitVec.ofNat 12 (0x060 + 4 * i.val)
  | .desSkHi i => BitVec.ofNat 12 (0x080 + 8 * i.val)
  | .desSkLo i => BitVec.ofNat 12 (0x084 + 8 * i.val)
  | .aesRk j => BitVec.ofNat 12 (0x100 + 4 * j.val)

/-- The registers below 0x050, in offset order (10_state.md R23). -/
def lowRegs : List RegName :=
  [.cmd, .status, .srcAddr, .srcLen, .dstAddr, .outLen, .keyAddr, .keyLen, .ivAddr, .saltAddr, .saltLen, .iter, .dkLen, .memsize]
  ++ [.desKeyHi, .desKeyLo, .desBlkHi, .desBlkLo]

/-- The register at a 4-aligned offset, or none where the offset is reserved (10_state.md R23, R44). -/
def regAt (off : BitVec 12) : Option RegName :=
  let o := off.toNat
  if o < 0x050 then lowRegs.find? fun r => regOffset r = off
  else if o < 0x060 then some (.aesKey (Fin.ofNat 4 ((o - 0x050) / 4)))
  else if o < 0x070 then some (.aesState (Fin.ofNat 4 ((o - 0x060) / 4)))
  else if o < 0x080 then none
  else if o < 0x100 then
    if o % 8 = 0 then some (.desSkHi (Fin.ofNat 16 ((o - 0x080) / 8))) else some (.desSkLo (Fin.ofNat 16 ((o - 0x080) / 8)))
  else if o < 0x1B0 then some (.aesRk (Fin.ofNat 44 ((o - 0x100) / 4)))
  else none

/-- What a register reads while the engine is idle (10_state.md R24 to R43). CMD reads 0 (R24). -/
def State.readReg (s : State) : RegName → Word
  | .cmd => 0
  | .status => statusWord s.status
  | .srcAddr => s.regs.srcAddr
  | .srcLen => s.regs.srcLen
  | .dstAddr => s.regs.dstAddr
  | .outLen => s.regs.outLen
  | .keyAddr => s.regs.keyAddr
  | .keyLen => s.regs.keyLen
  | .ivAddr => s.regs.ivAddr
  | .saltAddr => s.regs.saltAddr
  | .saltLen => s.regs.saltLen
  | .iter => s.regs.iter
  | .dkLen => s.regs.dkLen
  | .memsize => s.memsize
  | .desKeyHi => s.regs.desKeyHi
  | .desKeyLo => s.regs.desKeyLo
  | .desBlkHi => s.regs.desBlkHi
  | .desBlkLo => s.regs.desBlkLo
  | .aesKey i => quadGet s.regs.aesKey i
  | .aesState i => quadGet s.regs.aesState i
  | .desSkHi i => (s.regs.desSk[i].extractLsb' 32 16).setWidth 32
  | .desSkLo i => s.regs.desSk[i].extractLsb' 0 32
  | .aesRk j => s.regs.aesRk[j]

/-- Whether the host can write a register's storage: access RW in the map (10_state.md R23). CMD is WO and starts a command instead. -/
def regWritable : RegName → Bool
  | .cmd | .status | .outLen | .memsize | .desSkHi _ | .desSkLo _ | .aesRk _ => false
  | .srcAddr | .srcLen | .dstAddr | .keyAddr | .keyLen | .ivAddr | .saltAddr | .saltLen | .iter | .dkLen => true
  | .desKeyHi | .desKeyLo | .desBlkHi | .desBlkLo | .aesKey _ | .aesState _ => true

/-- The storage after a host write: an RW register holds the value, an RO register's write is ignored (10_state.md R26 to R45). -/
def Regs.hostWrite (r : Regs) (name : RegName) (v : Word) : Regs :=
  match name with
  | .srcAddr => { r with srcAddr := v }
  | .srcLen => { r with srcLen := v }
  | .dstAddr => { r with dstAddr := v }
  | .keyAddr => { r with keyAddr := v }
  | .keyLen => { r with keyLen := v }
  | .ivAddr => { r with ivAddr := v }
  | .saltAddr => { r with saltAddr := v }
  | .saltLen => { r with saltLen := v }
  | .iter => { r with iter := v }
  | .dkLen => { r with dkLen := v }
  | .desKeyHi => { r with desKeyHi := v }
  | .desKeyLo => { r with desKeyLo := v }
  | .desBlkHi => { r with desBlkHi := v }
  | .desBlkLo => { r with desBlkLo := v }
  | .aesKey i => { r with aesKey := quadSet r.aesKey i v }
  | .aesState i => { r with aesState := quadSet r.aesState i v }
  | .cmd | .status | .outLen | .memsize | .desSkHi _ | .desSkLo _ | .aesRk _ => r

/-- A legal host write while the engine is idle: CMD is accepted, any other register stored or ignored (60_exceptions.md R250;
10_state.md R45). -/
def State.writeReg (s : State) (name : RegName) (v : Word) : State :=
  match name with
  | .cmd => s.accept v
  | _ => s.setRegs (s.regs.hostWrite name v)

/-- The value at a 4-aligned offset of the window; a reserved offset reads 0 (10_state.md R44). -/
def State.windowRead (s : State) (off : BitVec 12) : Word :=
  match regAt off with
  | some name => s.readReg name
  | none => 0

/-- A register access is a whole 32-bit word at a multiple of 4 (20_memory.md R70). -/
def legalAccess (off : BitVec 12) (width : Nat) : Bool := off.toNat % 4 = 0 && width = 32

/-- The sticky hazard mark set, nothing else changed (70_reset_and_hazards.md R290; log entry 7). -/
def State.markHazard (s : State) : State := { s with hazard := true }

/-- A read's result recorded (30_encoding.md R99). -/
def State.record (s : State) (r : HostResult) : State := { s with results := s.results ++ [r] }

/-- A register read that "returns any value": the next free word (70_reset_and_hazards.md R290, R291; log entry 6). -/
def State.recordFreeWord (s : State) (off : BitVec 12) : State :=
  { s.record (.reg off (Config.freeWord s.draws)) with draws := s.draws + 1 }

/-- A DMEM read that "returns any value": the next free byte (70_reset_and_hazards.md R290, R291; log entry 6). -/
def State.recordFreeByte (s : State) (a : Nat) : State :=
  { s.record (.mem a (Config.freeByte s.draws)) with draws := s.draws + 1 }

/-- A host register write: a hazard while BUSY or where the access is malformed, else the register's write; a reserved offset ignores it
(10_state.md R44; 70_reset_and_hazards.md R290). -/
def State.hostRegWrite (s : State) (off : BitVec 12) (width : Nat) (v : Word) : State :=
  if s.status.busy || !legalAccess off width then s.markHazard
  else
    match regAt off with
    | some name => s.writeReg name v
    | none => s

/-- A host register read: malformed, a hazard and any value; while BUSY, STATUS exact and anything else any value; else the window's value
(70_reset_and_hazards.md R290, R291). -/
def State.hostRegRead (s : State) (off : BitVec 12) (width : Nat) : State :=
  if !legalAccess off width then s.markHazard.recordFreeWord off
  else if s.status.busy && off ≠ regOffset .status then s.recordFreeWord off
  else s.record (.reg off (s.windowRead off))

/-- A host DMEM byte write: a hazard while BUSY or at an address beyond DMEM (20_memory.md R71; 70_reset_and_hazards.md R290). -/
def State.hostMemWrite (s : State) (a : Nat) (b : Byte) : State :=
  if s.status.busy || s.dmemSize ≤ a then s.markHazard else s.memWrite a [b]

/-- A host DMEM byte read: beyond DMEM, a hazard and any value; while BUSY any value; else the byte (20_memory.md R71;
70_reset_and_hazards.md R290, R291). -/
def State.hostMemRead (s : State) (a : Nat) : State :=
  if s.dmemSize ≤ a then s.markHazard.recordFreeByte a
  else if s.status.busy then s.recordFreeByte a
  else s.record (.mem a (s.readByte a))

/-- `wait`: read STATUS, and repeat while bit 0 of the result is 1 (30_encoding.md R100). `s` has the `wait` taken from the host's list. -/
def State.hostWait (s : State) : State :=
  let t := s.hostRegRead (regOffset .status) 32
  if (statusWord s.status).getLsbD 0 then { t with host := .wait :: t.host } else t

/-- One host access performed (30_encoding.md R99; 20_memory.md R76). -/
def State.hostAccess (s : State) : HostOp → State
  | .regWrite off width v => s.hostRegWrite off width v
  | .regRead off width => s.hostRegRead off width
  | .memWrite a b => s.hostMemWrite a b
  | .memRead a => s.hostMemRead a
  | .wait => s.hostWait
  | .reset => s.coreReset

/-- The host's turn: its next access, in program order; with none left it does nothing (20_memory.md R76). -/
def State.hostStep (s : State) : State :=
  match s.host with
  | [] => s
  | op :: rest => { s with host := rest }.hostAccess op

/-- The host's turn while a command is pending: one of the host steps before its engine step (70_reset_and_hazards.md R295; log entry 5). -/
def State.hostTurn (s : State) : State := { s with delay := s.delay - 1 }.hostStep

/-- A host program given to the machine: the way a program comes to run (log entry 8). -/
def State.withHost (s : State) (program : List HostOp) : State := { s with host := program }

/-- A 32-bit register write by name (30_encoding.md R99). -/
def writeOp (name : RegName) (v : Word) : HostOp := .regWrite (regOffset name) 32 v

/-- The byte writes of `mset` (30_encoding.md R99). -/
def msetOps : Nat → Bytes → List HostOp
  | _, [] => []
  | a, b :: bs => .memWrite a b :: msetOps (a + 1) bs

/-- The four writes of `write128`, most significant word first (30_encoding.md R100). -/
def write128Ops (name : Fin 4 → RegName) (v : BitVec 128) : List HostOp :=
  [ writeOp (name 0) (v.extractLsb' 96 32), writeOp (name 1) (v.extractLsb' 64 32),
    writeOp (name 2) (v.extractLsb' 32 32), writeOp (name 3) (v.extractLsb' 0 32) ]

/-- The host accesses a statement expands to; none where an assembler rejects it, which is a `cmd` with an index out of range
(30_encoding.md R99, R100). -/
def expandStmt : HostStmt → Option (List HostOp)
  | .write r v => some [writeOp r v]
  | .writeOffset off v => some [.regWrite off 32 v]
  | .read r => some [.regRead (regOffset r) 32]
  | .mset a bs => some (msetOps a bs)
  | .mget a n => some ((List.range n).map fun k => .memRead (a + k))
  | .reset => some [.reset]
  | .cmd i => if i.wellFormed then some [writeOp .cmd (encode i)] else none
  | .wait => some [.wait]
  | .run i => if i.wellFormed then some [writeOp .cmd (encode i), .wait] else none
  | .write64DesKey v => some [writeOp .desKeyHi (v.extractLsb' 32 32), writeOp .desKeyLo (v.extractLsb' 0 32)]
  | .write64DesBlk v => some [writeOp .desBlkHi (v.extractLsb' 32 32), writeOp .desBlkLo (v.extractLsb' 0 32)]
  | .write128AesKey v => some (write128Ops .aesKey v)
  | .write128AesState v => some (write128Ops .aesState v)

/-- The host accesses of a program, statement by statement (30_encoding.md R99). -/
def expandProgram : List HostStmt → Option (List HostOp)
  | [] => some []
  | st :: rest =>
    match expandStmt st, expandProgram rest with
    | some ops, some more => some (ops ++ more)
    | _, _ => none

end Sys2Proof.Machine
end

