-- ==== Sys2Proof/Machine/Pbkdf2.lean ====
section
/-! DEFINITION. SHA-1, HMAC-SHA1 and PBKDF2, and the command PBKDF2 (44_pbkdf2.md R170 to R181). -/

namespace Sys2Proof.Machine

/-- `INT32BE(i)` (00_scope.md R12). -/
def int32be (i : Nat) : Bytes := bitsToBytes (BitVec.ofNat 32 i)

/-- `INT64BE(i)` (44_pbkdf2.md R170). -/
def int64be (i : Nat) : Bytes := bitsToBytes (BitVec.ofNat 64 i)

/-- The number `z` of zero bytes of the padding: the least with `(L + 1 + z + 8) mod 64 = 0` (44_pbkdf2.md R170). -/
def sha1ZeroCount (len : Nat) : Nat := (64 - (len + 9) % 64) % 64

/-- SHA-1 padding (44_pbkdf2.md R170). -/
def sha1Pad (m : Bytes) : Bytes :=
  m ++ [0x80] ++ List.replicate (sha1ZeroCount m.length) 0x00 ++ int64be (8 * m.length)

/-- The chaining words and the working words of SHA-1 (44_pbkdf2.md R171, R174). -/
structure Sha1Words where
  a : Word
  b : Word
  c : Word
  d : Word
  e : Word
deriving DecidableEq, Repr

/-- The initial value (44_pbkdf2.md R171). -/
def sha1Init : Sha1Words := ⟨0x67452301, 0xEFCDAB89, 0x98BADCFE, 0x10325476, 0xC3D2E1F0⟩

/-- `count` more words of the message schedule, newest first (44_pbkdf2.md R172). -/
def sha1Extend : Nat → List Word → List Word
  | 0, ws => ws
  | count + 1, ws =>
    sha1Extend count ((ws.getD 2 0 ^^^ ws.getD 7 0 ^^^ ws.getD 13 0 ^^^ ws.getD 15 0).rotateLeft 1 :: ws)

/-- The message schedule `w[0..79]` of a 64-byte block (44_pbkdf2.md R170, R172). -/
def sha1Schedule (block : Bytes) : List Word :=
  (sha1Extend 64 ((List.range 16).map fun t => wordAt block (4 * t)).reverse).reverse

/-- `f_t(b, c, d)` (44_pbkdf2.md R173). -/
def sha1F (t : Nat) (b c d : Word) : Word :=
  if t < 20 then (b &&& c) ||| (~~~b &&& d)
  else if t < 40 then b ^^^ c ^^^ d
  else if t < 60 then (b &&& c) ||| (b &&& d) ||| (c &&& d)
  else b ^^^ c ^^^ d

/-- `K_t` (44_pbkdf2.md R173). -/
def sha1K (t : Nat) : Word :=
  if t < 20 then 0x5A827999 else if t < 40 then 0x6ED9EBA1 else if t < 60 then 0x8F1BBCDC else 0xCA62C1D6

/-- Step `t` of the compression, additions modulo 2^32 (44_pbkdf2.md R174). -/
def sha1Step (t : Nat) (w : Word) (s : Sha1Words) : Sha1Words where
  a := s.a.rotateLeft 5 + sha1F t s.b s.c s.d + s.e + sha1K t + w
  b := s.a
  c := s.b.rotateLeft 30
  d := s.c
  e := s.d

/-- The steps from `t` on, one for each remaining schedule word (44_pbkdf2.md R174). -/
def sha1Steps : Nat → List Word → Sha1Words → Sha1Words
  | _, [], s => s
  | t, w :: ws, s => sha1Steps (t + 1) ws (sha1Step t w s)

/-- The compression of one block into the chaining words (44_pbkdf2.md R174). -/
def sha1Compress (h : Sha1Words) (block : Bytes) : Sha1Words :=
  let r := sha1Steps 0 (sha1Schedule block) h
  ⟨h.a + r.a, h.b + r.b, h.c + r.c, h.d + r.d, h.e + r.e⟩

/-- `sha1(M)`, 20 bytes, each word big-endian (44_pbkdf2.md R175). -/
def sha1 (m : Bytes) : Bytes :=
  let q := sha1Pad m
  let h := (blocks 64 (q.length / 64) q).foldl sha1Compress sha1Init
  bitsToBytes h.a ++ bitsToBytes h.b ++ bitsToBytes h.c ++ bitsToBytes h.d ++ bitsToBytes h.e

/-- The 64-byte HMAC key `K0`: a key longer than 64 bytes is hashed first, then zeros fill the block (44_pbkdf2.md R176). -/
def hmacKey (k : Bytes) : Bytes :=
  let k0 := if k.length > 64 then sha1 k else k
  k0 ++ List.replicate (64 - k0.length) 0x00

/-- `hmacSha1(K, m)` (44_pbkdf2.md R176). -/
def hmacSha1 (k m : Bytes) : Bytes :=
  let k0 := hmacKey k
  sha1 (xorBytes k0 (List.replicate 64 0x5C) ++ sha1 (xorBytes k0 (List.replicate 64 0x36) ++ m))

/-- The iterations that remain of one PBKDF2 block: `U = hmacSha1(P, U)`, `T = T xor U` (44_pbkdf2.md R177). -/
def pbkdf2Iterate (p : Bytes) : Nat → Bytes → Bytes → Bytes
  | 0, _, t => t
  | count + 1, u, t => pbkdf2Iterate p count (hmacSha1 p u) (xorBytes t (hmacSha1 p u))

/-- Block `i` of PBKDF2, the counter big-endian from 1 (44_pbkdf2.md R177). -/
def pbkdf2Block (p salt : Bytes) (c i : Nat) : Bytes :=
  let u := hmacSha1 p (salt ++ int32be i)
  pbkdf2Iterate p (c - 1) u u

/-- `pbkdf2(P, S, c, dkLen)` (44_pbkdf2.md R177). -/
def pbkdf2 (p salt : Bytes) (c dkLen : Nat) : Bytes :=
  ((List.range ((dkLen + 19) / 20)).flatMap fun k => pbkdf2Block p salt c (k + 1)).take dkLen

/-- The checks of PBKDF2, in order (44_pbkdf2.md R179, R180; 60_exceptions.md R253). -/
def pbkdf2Checks (s : State) : List (Bool × ECode) :=
  (s.regs.iter.toNat = 0 ∨ s.regs.dkLen.toNat = 0, .invalidParam)
  :: rangeErrors s.dmemSize (rangeOf s.regs.dstAddr s.regs.dkLen.toNat)
       [rangeOf s.regs.srcAddr s.regs.srcLen.toNat, rangeOf s.regs.saltAddr s.regs.saltLen.toNat]

/-- PBKDF2 (44_pbkdf2.md R180). -/
def execPbkdf2 (s : State) : Host.Outcome State Fault Refusal :=
  let p := s.memRead s.regs.srcAddr.toNat s.regs.srcLen.toNat
  let salt := s.memRead s.regs.saltAddr.toNat s.regs.saltLen.toNat
  .next (s.commit (s.bufferCommand (pbkdf2Checks s) s.regs.dstAddr.toNat
    (.ok (pbkdf2 p salt s.regs.iter.toNat s.regs.dkLen.toNat))))

end Sys2Proof.Machine
end

