-- ==== Sys2Proof/Machine/Dispatch.lean ====
section
/-! DEFINITION. The dispatch of a decoded command to its meaning: one arm per constructor of Instr (60_exceptions.md R251, `execute(cmd)`). -/

namespace Sys2Proof.Machine

def exec (i : Instr) (s : State) : Host.Outcome State Fault Refusal :=
  match i with
  | .nop => Sys2Proof.Machine.execNop s
  | .desKs => Sys2Proof.Machine.execDesKs s
  | .desRound idx => Sys2Proof.Machine.execDesRound idx s
  | .desBlock decrypt => Sys2Proof.Machine.execDesBlock decrypt s
  | .desEcbDec => Sys2Proof.Machine.execDesEcbDec s
  | .aesKeyexp => Sys2Proof.Machine.execAesKeyexp s
  | .aesSubbytes => Sys2Proof.Machine.execAesSubbytes s
  | .aesShiftrows => Sys2Proof.Machine.execAesShiftrows s
  | .aesMixcolumns => Sys2Proof.Machine.execAesMixcolumns s
  | .aesAddrk idx => Sys2Proof.Machine.execAesAddrk idx s
  | .aesBlockEnc => Sys2Proof.Machine.execAesBlockEnc s
  | .aesCbcEnc => Sys2Proof.Machine.execAesCbcEnc s
  | .pbkdf2 => Sys2Proof.Machine.execPbkdf2 s
  | .clear => Sys2Proof.Machine.execClear s

end Sys2Proof.Machine
end

