-- ==== Sys2Proof/Machine/Engine.lean ====
section
/-! DEFINITION. The engine's atomic step on the pending word: decode, then the command's meaning or ILLEGAL_CMD (60_exceptions.md R251, R252;
20_memory.md R72). -/

namespace Sys2Proof.Machine

/-- `engineStep(w)` (60_exceptions.md R251). -/
def engineStep (w : Word) (s : State) : Host.Outcome State Fault Refusal :=
  match decode w with
  | .ok i => exec i s
  | .error _ => .next (s.raise .illegalCmd)

end Sys2Proof.Machine
end

