-- ==== Sys2Proof/Machine/Step.lean ====
section
/-! DEFINITION. One step of the machine (10_state.md R22): the engine's step when a command is pending and its delay has run out, else the
host's next access. -/

namespace Sys2Proof.Machine

/-- One step (10_state.md R22, R48; 70_reset_and_hazards.md R295; log entries 4 and 5). -/
def step (s : State) : Host.Outcome State Fault Refusal :=
  match s.phase with
  | .idle => .next s.hostStep
  | .pending w => if s.delay = 0 then engineStep w s else .next s.hostTurn

/-- `s` with a command accepted whose engine step comes next. A command is not fetched: it comes from the host's write of CMD (R250), which
this stands for, with no host step before the engine's (log entry 8). -/
def State.withFetchWord (s : State) (nbits w : Nat) : State :=
  { s with phase := .pending (tableWord nbits w), status := acceptedStatus, delay := 0 }

end Sys2Proof.Machine
end

