-- ==== Sys2Proof/Safety.lean ====
section
/-! DEFINITION. What counts as a safe run and as a state a run can be in: the hazard mark (70_reset_and_hazards.md R290) and the invariant of
the state (10_state.md R25, R48; 20_memory.md R60). -/

namespace Sys2Proof.Machine

/-- A safe state: no host hazard since reset. Every correctness statement about a host program is conditioned on it
(70_reset_and_hazards.md R290). -/
def Safe (s : State) : Prop := s.hazard = false

/-- The legal combinations of STATUS (10_state.md R25). -/
def statusLegal (st : Status) : Bool :=
  (!st.busy || (!st.done && !st.err && st.ecode = .none))
    && (!st.err || (st.done && st.ecode ≠ .none))
    && (st.err || st.ecode = .none)

/-- Whether a command is pending (10_state.md R48). -/
def phasePending : Phase → Bool
  | .idle => false
  | .pending _ => true

/-- The invariant of the state: legal STATUS (R25), BUSY exactly while a command is pending (R48), a DMEM of at least one byte (R60), and
DMEM in canonical form within its size (log entry 3). -/
structure Inv (s : State) : Prop where
  status : statusLegal s.status = true
  busy : s.status.busy = phasePending s.phase
  size : s.memsize ≠ 0
  mem : Memory.wf s.dmemSize s.dmem

/-- A run of steps that meets no host hazard: every state along it is safe (70_reset_and_hazards.md R290). -/
def SafeRun : Nat → State → Prop
  | 0, s => Safe s
  | k + 1, s => Safe s ∧ ∀ t, step s = .next t → SafeRun k t

/-- The outcome of `k` steps. -/
def runSteps : Nat → State → Host.Outcome State Fault Refusal
  | 0, s => .next s
  | k + 1, s =>
    match step s with
    | .next t => runSteps k t
    | .fault r => .fault r
    | .refused r => .refused r

/-- Commands executed one after another, each from the state the one before left. -/
def execAll : List Instr → State → Host.Outcome State Fault Refusal
  | [], s => .next s
  | i :: rest, s =>
    match exec i s with
    | .next t => execAll rest t
    | .fault r => .fault r
    | .refused r => .refused r

end Sys2Proof.Machine
end

