-- ==== Sys2Proof/Certificates/Slice0/Obligations.lean ====
section
/-! DEFINITION. The statements for the provers. Each docstring says which sentence of the spec it formalises. A next state is given as the
state before with the named fields replaced, so that an equation with it states the result and the frame at once. -/

namespace Sys2Proof.Machine

/-! ## Words the statements use -/

/-- STATUS after `complete OK`: DONE set, the rest 0 (60_exceptions.md R251). -/
def okStatus : Status := ⟨false, true, false, .none⟩

/-- Two ranges share no address. -/
abbrev Apart (a n b m : Nat) : Prop := n = 0 ∨ m = 0 ∨ a + n ≤ b ∨ b + m ≤ a

/-- When DES_ECB_DEC executes normally (43_des_ecb.md R163). -/
abbrev DesEcbReady (s : State) : Prop :=
  s.regs.srcLen.toNat ≠ 0 ∧ s.regs.srcLen.toNat % 8 = 0 ∧ 8 ≤ s.regs.keyLen.toNat
  ∧ s.regs.srcAddr.toNat + s.regs.srcLen.toNat ≤ s.memsize.toNat
  ∧ s.regs.keyAddr.toNat + 8 ≤ s.memsize.toNat
  ∧ s.regs.dstAddr.toNat + s.regs.srcLen.toNat ≤ s.memsize.toNat
  ∧ Apart s.regs.dstAddr.toNat s.regs.srcLen.toNat s.regs.srcAddr.toNat s.regs.srcLen.toNat
  ∧ Apart s.regs.dstAddr.toNat s.regs.srcLen.toNat s.regs.keyAddr.toNat 8

/-- `N = 16·(floor(n/16) + 1)` for the plaintext length in SRC_LEN (47_aes_cbc.md R232). -/
abbrev paddedLen (s : State) : Nat := 16 * (s.regs.srcLen.toNat / 16 + 1)

/-- When AES_CBC_ENC executes normally (47_aes_cbc.md R233). -/
abbrev AesCbcReady (s : State) : Prop :=
  16 ≤ s.regs.keyLen.toNat
  ∧ s.regs.srcAddr.toNat + s.regs.srcLen.toNat ≤ s.memsize.toNat
  ∧ s.regs.keyAddr.toNat + 16 ≤ s.memsize.toNat
  ∧ s.regs.ivAddr.toNat + 16 ≤ s.memsize.toNat
  ∧ s.regs.dstAddr.toNat + paddedLen s ≤ s.memsize.toNat
  ∧ Apart s.regs.dstAddr.toNat (paddedLen s) s.regs.srcAddr.toNat s.regs.srcLen.toNat
  ∧ Apart s.regs.dstAddr.toNat (paddedLen s) s.regs.keyAddr.toNat 16
  ∧ Apart s.regs.dstAddr.toNat (paddedLen s) s.regs.ivAddr.toNat 16

/-- When PBKDF2 executes normally (44_pbkdf2.md R180). -/
abbrev Pbkdf2Ready (s : State) : Prop :=
  s.regs.iter.toNat ≠ 0 ∧ s.regs.dkLen.toNat ≠ 0
  ∧ s.regs.srcAddr.toNat + s.regs.srcLen.toNat ≤ s.memsize.toNat
  ∧ s.regs.saltAddr.toNat + s.regs.saltLen.toNat ≤ s.memsize.toNat
  ∧ s.regs.dstAddr.toNat + s.regs.dkLen.toNat ≤ s.memsize.toNat
  ∧ Apart s.regs.dstAddr.toNat s.regs.dkLen.toNat s.regs.srcAddr.toNat s.regs.srcLen.toNat
  ∧ Apart s.regs.dstAddr.toNat s.regs.dkLen.toNat s.regs.saltAddr.toNat s.regs.saltLen.toNat

/-- Every 8-byte block encrypted on its own, without padding: the test helper `desEcbEncryptNoUnpad` (43_des_ecb.md R165). -/
def desEcbEncrypt (p : Bytes) (sk : Vector (BitVec 48) 16) : Bytes :=
  (blocks 8 (p.length / 8) p).flatMap fun b => desBlockBytes b sk false

/-- The product in GF(2^8), by the bits of the second factor from `count` down (45_aes_key_expansion.md R200). -/
def gfMul (a b : Byte) : Nat → Byte
  | 0 => 0
  | count + 1 => xtime (gfMul a b count) ^^^ (if b.getLsbD (7 - count) then a else 0)

/-- The affine map `A(b)` of the AES S-box (45_aes_key_expansion.md R201). -/
def affineA (b : Byte) : Byte := b ^^^ b.rotateLeft 1 ^^^ b.rotateLeft 2 ^^^ b.rotateLeft 3 ^^^ b.rotateLeft 4

/-- The legal words by their fields (30_encoding.md R95). -/
abbrev LegalFields (w : Word) : Prop :=
  (opField w).toNat ∈ [0x00, 0x01, 0x02, 0x03, 0x04, 0x10, 0x11, 0x12, 0x13, 0x14, 0x15, 0x16, 0x20, 0x30]
  ∧ w.extractLsb' 16 16 = 0 ∧ w.extractLsb' 9 3 = 0
  ∧ (dirField w = true → opField w = 0x03)
  ∧ (idxField w ≠ 0 → opField w = 0x02 ∨ opField w = 0x14)
  ∧ (opField w = 0x14 → (idxField w).toNat ≤ 10)

/-- The commands that read and write DMEM (00_scope.md R18). -/
abbrev IsBufferCommand (i : Instr) : Prop := i = .desEcbDec ∨ i = .aesCbcEnc ∨ i = .pbkdf2

/-- The host accesses that are hazards in a state (70_reset_and_hazards.md R290). -/
def IsHazard (s : State) : HostOp → Prop
  | .regWrite off width _ => s.status.busy = true ∨ off.toNat % 4 ≠ 0 ∨ width ≠ 32
  | .regRead off width => off.toNat % 4 ≠ 0 ∨ width ≠ 32
  | .memWrite a _ => s.status.busy = true ∨ s.memsize.toNat ≤ a
  | .memRead a => s.memsize.toNat ≤ a
  | .wait => False
  | .reset => False

/-- The offsets the register map reserves (10_state.md R44). -/
abbrev ReservedOffset (off : BitVec 12) : Prop :=
  off = 0x038 ∨ off = 0x03C ∨ (0x070 ≤ off.toNat ∧ off.toNat ≤ 0x07C) ∨ 0x1B0 ≤ off.toNat

/-- The step commands that make up AES_BLOCK_ENC (46_aes_block.md R215). -/
def aesBlockSteps : List Instr :=
  [.aesAddrk 0]
  ++ ((List.range 9).flatMap fun r => [.aesSubbytes, .aesShiftrows, .aesMixcolumns, .aesAddrk (BitVec.ofNat 4 (r + 1))])
  ++ [.aesSubbytes, .aesShiftrows, .aesAddrk 10]

/-- The sixteen DES_ROUND commands in the subkey order of a direction (42_des_feistel.md R151, R152). -/
def desRoundSteps (decrypt : Bool) : List Instr :=
  (List.range 16).map fun i => .desRound (BitVec.ofNat 4 (if decrypt then 15 - i else i))

end Sys2Proof.Machine

open Sys2Proof Sys2Proof.Machine

/-! ## The command word -/

/-- Decoding the word the encoder gives for a well-formed command gives the command back, every operand at every value (30_encoding.md R90
to R97). -/
def Obligations.DecodeInvertsEncode : Prop :=
  ∀ i : Instr, i.wellFormed = true → decode (encode i) = .ok i

/-- A word that decodes is exactly the word of its command, so no bit of it is ignored (30_encoding.md R95 to R98). -/
def Obligations.EncodeInvertsDecode : Prop :=
  ∀ (w : Word) (i : Instr), decode w = .ok i → encode i = w ∧ i.wellFormed = true

/-- 30_encoding.md R95: the legal words by their fields, equivalently by mask and match with AES_ADDRK's range; every other word completes
with ILLEGAL_CMD and changes nothing else. -/
def Obligations.LegalWordsAreThoseOfTheFields : Prop :=
  ∀ w : Word,
    ((∃ i, decode w = .ok i) ↔ LegalFields w)
    ∧ ((∃ i, decode w = .ok i) ↔ ∃ r ∈ opcodeTable, w &&& r.mask = r.bits ∧ (r.bits = 0x00000014 → (idxField w).toNat ≤ 10))
    ∧ (¬ LegalFields w → ∀ s : State, engineStep w s = .next { s with status := ⟨false, true, true, .illegalCmd⟩, phase := .idle })

/-- 30_encoding.md R97: at most one row of the opcode table matches any word. -/
def Obligations.AtMostOneRowMatches : Prop :=
  ∀ w : Word, (opcodeTable.filter fun r => rowMatches r w).length ≤ 1

/-- Words written out from the encodings of 30_encoding.md R96 (vectors of 95_test_vectors.md §2.11). -/
def Obligations.TableWordsDecode : Prop :=
  (decode 0x00000001).toOption = some .desKs
  ∧ (decode 0x0000F002).toOption = some (.desRound 15)
  ∧ (decode 0x00000103).toOption = some (.desBlock true)
  ∧ (decode 0x00000016).toOption = some .aesCbcEnc
  ∧ (decode 0x0000A014).toOption = some (.aesAddrk 10)
  ∧ (decode 0x00000020).toOption = some .pbkdf2
  ∧ (decode 0x00000030).toOption = some .clear
  ∧ (decode 0x0000B014).toOption = none
  ∧ (decode 0x00001103).toOption = none
  ∧ (decode 0x00000200).toOption = none

/-! ## The engine's step, completion and errors -/

/-- 60_exceptions.md R251 and 70_reset_and_hazards.md R295: a pending command runs when its delay has run out, and until then a step is the
host's turn. `withFetchWord` puts a command exactly there. -/
def Obligations.StepRunsTheDecodedCommand : Prop :=
  (∀ (s : State) (w : Word) (i : Instr), s.phase = .pending w → s.delay = 0 → decode w = .ok i → step s = exec i s)
  ∧ (∀ (s : State) (w : Word), s.phase = .pending w → s.delay ≠ 0 → step s = .next s.hostTurn)
  ∧ (∀ (s : State) (w : Nat) (i : Instr), decodeTableWord 32 w = some i →
      step (s.withFetchWord 32 w) = exec i (s.withFetchWord 32 w))

/-- 60_exceptions.md R252: an accepted word that decodes to no command completes at the next engine step with ERR = 1 and ECODE = 0x01 and
changes no other register and no DMEM byte. -/
def Obligations.IllegalWordReportsAndChangesNothing : Prop :=
  ∀ (s : State) (w : Word) (r : IllegalReason), s.phase = .pending w → s.delay = 0 → decode w = .error r →
    ∃ t, step s = .next t ∧ t = { s with status := t.status, phase := .idle }
      ∧ statusWord t.status = 0x00000106 ∧ (∀ name, name ≠ .status → t.readReg name = s.readReg name)
      ∧ ∀ x, t.readByte x = s.readByte x

/-- 60_exceptions.md R254: a failing command changes STATUS and the phase and nothing else. -/
def Obligations.FailingCommandsArePrecise : Prop :=
  ∀ (w : Word) (s t : State), engineStep w s = .next t → t.status.err = true →
    t = { s with status := t.status, phase := .idle } ∧ t.status.busy = false ∧ t.status.done = true ∧ t.status.ecode ≠ .none

/-- 60_exceptions.md R253: exactly one error is reported, the first of ILLEGAL_CMD, INVALID_LENGTH, INVALID_KEY, INVALID_PARAM, BOUNDS and
OVERLAP that holds, and every check reads registers only. -/
def Obligations.FirstErrorInOrderIsReported : Prop :=
  ∀ (w : Word) (s : State), ∃ t, engineStep w s = .next t ∧
    (∀ r, decode w = .error r → t.status.ecode = .illegalCmd) ∧
    (decode w = .ok .desEcbDec →
      let n := s.regs.srcLen.toNat
      let fits := s.regs.srcAddr.toNat + n ≤ s.memsize.toNat ∧ s.regs.keyAddr.toNat + 8 ≤ s.memsize.toNat
        ∧ s.regs.dstAddr.toNat + n ≤ s.memsize.toNat
      let apart := Apart s.regs.dstAddr.toNat n s.regs.srcAddr.toNat n ∧ Apart s.regs.dstAddr.toNat n s.regs.keyAddr.toNat 8
      if n = 0 ∨ n % 8 ≠ 0 then t.status.ecode = .invalidLength
      else if s.regs.keyLen.toNat < 8 then t.status.ecode = .invalidKey
      else if ¬ fits then t.status.ecode = .bounds
      else if ¬ apart then t.status.ecode = .overlap
      else t.status.ecode = .none) ∧
    (decode w = .ok .aesCbcEnc →
      let n := s.regs.srcLen.toNat
      let fits := s.regs.srcAddr.toNat + n ≤ s.memsize.toNat ∧ s.regs.keyAddr.toNat + 16 ≤ s.memsize.toNat
        ∧ s.regs.ivAddr.toNat + 16 ≤ s.memsize.toNat ∧ s.regs.dstAddr.toNat + paddedLen s ≤ s.memsize.toNat
      let apart := Apart s.regs.dstAddr.toNat (paddedLen s) s.regs.srcAddr.toNat n
        ∧ Apart s.regs.dstAddr.toNat (paddedLen s) s.regs.keyAddr.toNat 16
        ∧ Apart s.regs.dstAddr.toNat (paddedLen s) s.regs.ivAddr.toNat 16
      if s.regs.keyLen.toNat < 16 then t.status.ecode = .invalidKey
      else if ¬ fits then t.status.ecode = .bounds
      else if ¬ apart then t.status.ecode = .overlap
      else t.status.ecode = .none) ∧
    (decode w = .ok .pbkdf2 →
      let fits := s.regs.srcAddr.toNat + s.regs.srcLen.toNat ≤ s.memsize.toNat
        ∧ s.regs.saltAddr.toNat + s.regs.saltLen.toNat ≤ s.memsize.toNat
        ∧ s.regs.dstAddr.toNat + s.regs.dkLen.toNat ≤ s.memsize.toNat
      let apart := Apart s.regs.dstAddr.toNat s.regs.dkLen.toNat s.regs.srcAddr.toNat s.regs.srcLen.toNat
        ∧ Apart s.regs.dstAddr.toNat s.regs.dkLen.toNat s.regs.saltAddr.toNat s.regs.saltLen.toNat
      if s.regs.iter.toNat = 0 ∨ s.regs.dkLen.toNat = 0 then t.status.ecode = .invalidParam
      else if ¬ fits then t.status.ecode = .bounds
      else if ¬ apart then t.status.ecode = .overlap
      else t.status.ecode = .none) ∧
    (∀ i, decode w = .ok i → ¬ IsBufferCommand i → t.status.ecode = .none) ∧
    (t.status.ecode ≠ .none → t.dmem = s.dmem)

/-- The invariant holds right after reset, for every legal DMEM_SIZE and for the open parameter (10_state.md R25, R48, R51, R60). -/
def Obligations.InvariantHoldsAtReset : Prop :=
  (∀ n : Word, n ≠ 0 → Inv (State.resetWith n)) ∧ Inv State.reset

/-- From every state that meets the invariant a step answers a next state that meets it: STATUS stays a legal combination (10_state.md R25),
BUSY stays 1 exactly while a command is pending (R48), and DMEM stays canonical within DMEM_SIZE (20_memory.md R60, R66). -/
def Obligations.EveryStepKeepsTheInvariant : Prop :=
  ∀ s : State, Inv s → ∃ t, step s = .next t ∧ Inv t

/-- 10_state.md R37: MEMSIZE reads DMEM_SIZE, writes are ignored, and no step changes it. -/
def Obligations.MemsizeIsHardwired : Prop :=
  (∀ s : State, s.windowRead 0x034 = BitVec.ofNat 32 s.dmemSize)
  ∧ (∀ (s : State) (v : Word), s.status.busy = false → s.hostAccess (.regWrite 0x034 32 v) = s)
  ∧ ∀ s t : State, step s = .next t → t.memsize = s.memsize

/-! ## Control commands -/

/-- 48_control.md R240: NOP completes and changes nothing but STATUS (and the phase, which completion makes IDLE); a word with OP 0x00 and
any other bit set is illegal; it clears an error report, as 0x00000206 becomes 0x00000002. -/
def Obligations.NopOnlyCompletes : Prop :=
  encode .nop = 0x00000000
  ∧ (∀ w : Word, opField w = 0x00 → w ≠ 0 → ∃ r, decode w = .error r)
  ∧ (∀ s : State, exec .nop s = .next { s with status := ⟨false, true, false, .none⟩, phase := .idle })
  ∧ statusWord ⟨false, true, true, .invalidLength⟩ = 0x00000206 ∧ statusWord ⟨false, true, false, .none⟩ = 0x00000002

/-- 48_control.md R241: CLEAR zeroes DES_KEY, DES_BLK, DES_SK, AES_KEY, AES_STATE and AES_RK, which are then at their reset values, and
changes no other register and no DMEM byte; a word with OP 0x30 and any other bit set is illegal. -/
def Obligations.ClearErasesTheKeyRegisters : Prop :=
  encode .clear = 0x00000030
  ∧ (∀ w : Word, opField w = 0x30 → w ≠ 0x00000030 → ∃ r, decode w = .error r)
  ∧ ∀ s : State, ∃ t, exec .clear s = .next t
    ∧ t = { s with regs := t.regs, status := okStatus, phase := .idle }
    ∧ t.regs = { Regs.reset with
        srcAddr := s.regs.srcAddr, srcLen := s.regs.srcLen, dstAddr := s.regs.dstAddr, outLen := s.regs.outLen,
        keyAddr := s.regs.keyAddr, keyLen := s.regs.keyLen, ivAddr := s.regs.ivAddr, saltAddr := s.regs.saltAddr,
        saltLen := s.regs.saltLen, iter := s.regs.iter, dkLen := s.regs.dkLen }
    ∧ t.regs.desKeyHi = 0 ∧ t.regs.desKeyLo = 0 ∧ t.regs.desBlkHi = 0 ∧ t.regs.desBlkLo = 0
    ∧ (∀ i : Fin 16, t.regs.desSk[i] = 0) ∧ (∀ c : Fin 4, quadGet t.regs.aesKey c = 0 ∧ quadGet t.regs.aesState c = 0)
    ∧ (∀ j : Fin 44, t.regs.aesRk[j] = 0) ∧ ∀ x, t.readByte x = s.readByte x

/-! ## DES -/

/-- DES_KS writes DES_SK only (41_des_key_schedule.md §2), and subkey `i` is PC-2 of the PC-1 halves rotated left by the sum of the shifts of
rounds 0 to `i` (§1); the sixteen shifts bring both halves back. -/
def Obligations.DesKsWritesTheSubkeysInClosedForm : Prop :=
  ∀ s : State, ∃ sk : Vector (BitVec 48) 16,
    exec .desKs s = .next { s with regs := { s.regs with desSk := sk }, status := okStatus, phase := .idle }
    ∧ (∀ i : Fin 16,
        let cd := permute 56 (s.regs.desKeyHi ++ s.regs.desKeyLo) tablePC1
        let turn := (shifts.take (i.val + 1)).sum
        sk[i] = permute 48 ((cd.extractLsb' 28 28).rotateLeft turn ++ (cd.extractLsb' 0 28).rotateLeft turn) tablePC2)
    ∧ sk[15] = permute 48 (permute 56 (s.regs.desKeyHi ++ s.regs.desKeyLo) tablePC1) tablePC2

/-- The eight parity bits of a key reach no subkey (40_des_primitives.md R117 corner case, 90_conflicts.md C1). -/
def Obligations.ParityBitsReachNoSubkey : Prop :=
  ∀ key m : BitVec 64, keySchedule (key ^^^ (m &&& 0x0101010101010101)) = keySchedule key

/-- The source's known answer run as commands: DES_KS, DES_BLOCK encrypting, then DES_BLOCK decrypting (95_test_vectors.md §1.1, §2.1). -/
def Obligations.DesKnownAnswer : Prop :=
  ∀ s : State,
    let s0 := { s with regs := { s.regs with
      desKeyHi := 0x13345779, desKeyLo := 0x9BBCDFF1, desBlkHi := 0x01234567, desBlkLo := 0x89ABCDEF } }
    (∃ t, execAll [.desKs, .desBlock false] s0 = .next t ∧ t.regs.desBlkHi = 0x85E81354 ∧ t.regs.desBlkLo = 0x0F0AB405
      ∧ t.regs.desSk[0] = 0x1B02EFFC7072 ∧ t.regs.desSk[15] = 0xCB3D8B0E17F5)
    ∧ ∃ t, execAll [.desKs, .desBlock false, .desBlock true] s0 = .next t
      ∧ t.regs.desBlkHi = 0x01234567 ∧ t.regs.desBlkLo = 0x89ABCDEF

/-- One Feistel round gives `(R, L xor f(R, k))` and still mixes under the zero subkey; that `(L, R) = (R' xor f(L', k), L')` inverts it and
the example are the spec's own inference, its mark "derived: from this rule" (42_des_feistel.md §1). -/
def Obligations.DesRoundFunctionAndItsInverse : Prop :=
  (∀ (l r : BitVec 32) (k : BitVec 48),
    (desRound l r k).1 = r ∧ (desRound l r k).2 = l ^^^ feistelRound r k
    ∧ l = (desRound l r k).2 ^^^ feistelRound (desRound l r k).1 k)
  ∧ (∃ r : BitVec 32, feistelRound r 0 ≠ 0)
  ∧ desRound 0xCC00CCFF 0xF0AAF0AA 0x1B02EFFC7072 = (0xF0AAF0AA, 0xEF4A6544)

/-- DES_ROUND replaces DES_BLK by one Feistel round with `SK[IDX]`, for every IDX, without IP and FP, and writes nothing else
(42_des_feistel.md §2). -/
def Obligations.DesRoundCommandRunsOneRound : Prop :=
  ∀ (idx : BitVec 4) (s : State), ∃ hi lo : Word,
    exec (.desRound idx) s = .next
      { s with regs := { s.regs with desBlkHi := hi, desBlkLo := lo }, status := okStatus, phase := .idle }
    ∧ hi = s.regs.desBlkLo
    ∧ lo ^^^ s.regs.desBlkHi = feistelRound s.regs.desBlkLo s.regs.desSk[idx.toNat]

/-- DES_BLOCK writes DES_BLK only, with FP of `R16 ‖ L16` after sixteen rounds from the halves of IP of DES_BLK, the subkeys in order for
DIR = 0 and reversed for DIR = 1 (42_des_feistel.md §1, §2). -/
def Obligations.DesBlockRunsSixteenRounds : Prop :=
  ∀ (decrypt : Bool) (s : State), ∃ (b : BitVec 64) (l r : Nat → BitVec 32),
    exec (.desBlock decrypt) s = .next
      { s with regs := { s.regs with desBlkHi := b.extractLsb' 32 32, desBlkLo := b.extractLsb' 0 32 },
               status := okStatus, phase := .idle }
    ∧ l 0 ++ r 0 = permute 64 (s.regs.desBlkHi ++ s.regs.desBlkLo) tableIP
    ∧ (∀ i : Fin 16, l (i.val + 1) = r i.val
        ∧ r (i.val + 1) = l i.val ^^^ feistelRound (r i.val) (s.regs.desSk.toList.getD (if decrypt then 15 - i.val else i.val) 0))
    ∧ b = permute 64 (r 16 ++ l 16) tableFP

/-- DES_BLOCK in one direction and then in the other restores DES_BLK, for every DES_SK, whether or not DES_KS produced it, and leaves all
else as it was but STATUS (42_des_feistel.md §1 and §2, corner cases). -/
def Obligations.DesBlockDirectionsUndoEachOther : Prop :=
  ∀ (decrypt : Bool) (s : State), ∃ t,
    exec (.desBlock decrypt) s = .next t
    ∧ exec (.desBlock (!decrypt)) t = .next { s with status := okStatus, phase := .idle }

/-- Sixteen DES_ROUND commands from IP of the block, the halves then swapped and FP applied, give what DES_BLOCK gives, in both directions
(42_des_feistel.md §2, corner cases of DES_ROUND). -/
def Obligations.DesRoundsRefineDesBlock : Prop :=
  ∀ (decrypt : Bool) (s : State),
    let x := permute 64 (s.regs.desBlkHi ++ s.regs.desBlkLo) tableIP
    let s0 := { s with regs := { s.regs with desBlkHi := x.extractLsb' 32 32, desBlkLo := x.extractLsb' 0 32 } }
    ∃ t u, execAll (desRoundSteps decrypt) s0 = .next t ∧ exec (.desBlock decrypt) s = .next u
      ∧ u.regs.desBlkHi ++ u.regs.desBlkLo = permute 64 (t.regs.desBlkLo ++ t.regs.desBlkHi) tableFP
      ∧ u = { t with regs := { t.regs with desBlkHi := u.regs.desBlkHi, desBlkLo := u.regs.desBlkLo } }

/-- FP is the inverse of IP (40_des_primitives.md §2). -/
def Obligations.FinalPermutationInvertsInitial : Prop :=
  ∀ x : BitVec 64, permute 64 (permute 64 x tableIP) tableFP = x ∧ permute 64 (permute 64 x tableFP) tableIP = x

/-- DES_ECB_DEC, whenever its checks pass, writes at DST_ADDR the unpadded plaintext, each 8-byte block decrypted on its own with the
subkeys of the first 8 key bytes, sets OUT_LEN to its length and changes no other byte and no other register (43_des_ecb.md §1, §2). -/
def Obligations.DesEcbDecWritesTheUnpaddedPlaintext : Prop :=
  ∀ s : State, DesEcbReady s →
    let sk := keySchedule (bytesToBits 64 (s.memRead s.regs.keyAddr.toNat 8))
    let p := pkcs7UnpadLenient
      ((List.range (s.regs.srcLen.toNat / 8)).flatMap fun j => desBlockBytes (s.memRead (s.regs.srcAddr.toNat + 8 * j) 8) sk true) 8
    let d := s.regs.dstAddr.toNat
    ∃ t, exec .desEcbDec s = .next t
      ∧ t = { s with regs := { s.regs with outLen := t.regs.outLen }, dmem := t.dmem, status := okStatus, phase := .idle }
      ∧ t.regs.outLen.toNat = p.length ∧ t.memRead d p.length = p
      ∧ p.length ≤ s.regs.srcLen.toNat ∧ s.regs.srcLen.toNat ≤ p.length + 8
      ∧ ∀ x, x < d ∨ d + p.length ≤ x → t.readByte x = s.readByte x

/-- The round trip: if DMEM at SRC_ADDR holds the ECB encryption of a padded text under the key at KEY_ADDR, DES_ECB_DEC leaves that text at
DST_ADDR and its length in OUT_LEN (95_test_vectors.md §1.6; 43_des_ecb.md §1). -/
def Obligations.DesEcbDecRecoversThePaddedText : Prop :=
  ∀ (s : State) (p : Bytes), DesEcbReady s →
    s.memRead s.regs.srcAddr.toNat s.regs.srcLen.toNat
      = desEcbEncrypt (pkcs7Pad p 8) (keySchedule (bytesToBits 64 (s.memRead s.regs.keyAddr.toNat 8))) →
    ∃ t, exec .desEcbDec s = .next t ∧ t.status = okStatus ∧ t.regs.outLen.toNat = p.length
      ∧ t.memRead s.regs.dstAddr.toNat p.length = p

/-- 43_des_ecb.md R160: only the final byte is inspected; a value from 1 to 8 strips that many bytes, any other value strips none. -/
def Obligations.LenientUnpaddingReadsTheLastByteOnly : Prop :=
  ∀ (p : Bytes) (v : Byte),
    (1 ≤ v.toNat ∧ v.toNat ≤ 8 → 8 ≤ p.length + 1 →
      pkcs7UnpadLenient (p ++ [v]) 8 = p.take (p.length + 1 - v.toNat)
      ∧ (pkcs7UnpadLenient (p ++ [v]) 8).length + v.toNat = p.length + 1)
    ∧ (v.toNat = 0 ∨ 8 < v.toNat → pkcs7UnpadLenient (p ++ [v]) 8 = p ++ [v])

/-- Padding and then unpadding returns the original buffer, for every block size a byte can count (95_test_vectors.md §1.7). -/
def Obligations.UnpaddingInvertsPadding : Prop :=
  ∀ (p : Bytes) (bs : Nat), 1 ≤ bs → bs ≤ 255 → pkcs7UnpadLenient (pkcs7Pad p bs) bs = p

/-! ## AES -/

/-- AES_KEYEXP writes AES_RK only: words 0 to 3 are AES_KEY, and every later word is the word four back xor the word before it, which every
fourth time passes through RotWord, SubWord and Rcon (45_aes_key_expansion.md §2, §3). -/
def Obligations.AesKeyexpMeetsTheRecurrence : Prop :=
  ∀ s : State, ∃ w : Vector Word 44,
    exec .aesKeyexp s = .next { s with regs := { s.regs with aesRk := w }, status := okStatus, phase := .idle }
    ∧ (∀ c : Fin 4, roundKeyWord w c.val = quadGet s.regs.aesKey c)
    ∧ ∀ i, 4 ≤ i → i < 44 →
        roundKeyWord w i = roundKeyWord w (i - 4) ^^^
          (if i % 4 = 0 then subWord (rotWord (roundKeyWord w (i - 1))) ^^^ rconWord (i / 4) else roundKeyWord w (i - 1))

/-- AES_SUBBYTES replaces each byte of AES_STATE by its S-box entry and writes nothing else (46_aes_block.md §2, §3). -/
def Obligations.AesSubbytesSubstitutesEachByte : Prop :=
  ∀ s : State, ∃ q : Quad,
    exec .aesSubbytes s = .next { s with regs := { s.regs with aesState := q }, status := okStatus, phase := .idle }
    ∧ ∀ c r : Fin 4, wordByte (quadGet q c) r.val = sboxAes (wordByte (quadGet s.regs.aesState c) r.val)

/-- AES_SHIFTROWS rotates row `r` of AES_STATE left by `r` columns and writes nothing else (46_aes_block.md §2, §3). -/
def Obligations.AesShiftrowsRotatesTheRows : Prop :=
  ∀ s : State, ∃ q : Quad,
    exec .aesShiftrows s = .next { s with regs := { s.regs with aesState := q }, status := okStatus, phase := .idle }
    ∧ ∀ c r : Fin 4, wordByte (quadGet q c) r.val = wordByte (quadGet s.regs.aesState (c + r)) r.val

/-- AES_MIXCOLUMNS multiplies each column of AES_STATE by the matrix of rows 02 03 01 01 rotated, and writes nothing else
(46_aes_block.md §2, §3). -/
def Obligations.AesMixcolumnsMultipliesEachColumn : Prop :=
  ∀ s : State, ∃ q : Quad,
    exec .aesMixcolumns s = .next { s with regs := { s.regs with aesState := q }, status := okStatus, phase := .idle }
    ∧ ∀ c r : Fin 4,
        let a := fun k : Fin 4 => wordByte (quadGet s.regs.aesState c) k.val
        wordByte (quadGet q c) r.val
          = gfMul (a r) 0x02 8 ^^^ gfMul (a (r + 1)) 0x03 8 ^^^ a (r + 2) ^^^ a (r + 3)

/-- AES_ADDRK xors word `4·IDX + c` of AES_RK into register `c` of AES_STATE and writes nothing else (46_aes_block.md §3). -/
def Obligations.AesAddrkXorsTheRoundKey : Prop :=
  ∀ (idx : BitVec 4) (s : State), idx.toNat ≤ 10 → ∃ q : Quad,
    exec (.aesAddrk idx) s = .next { s with regs := { s.regs with aesState := q }, status := okStatus, phase := .idle }
    ∧ ∀ c : Fin 4, quadGet q c = quadGet s.regs.aesState c ^^^ roundKeyWord s.regs.aesRk (4 * idx.toNat + c.val)

/-- AES_ADDRK with IDX 11 to 15 is illegal, as a word and as a command (30_encoding.md §2; log entry 11 for the command as such). -/
def Obligations.AesAddrkBeyondTenIsIllegal : Prop :=
  ∀ idx : BitVec 4, 10 < idx.toNat →
    decode (encode (.aesAddrk idx)) = .error .idxOutOfRange
    ∧ ∀ s : State, exec (.aesAddrk idx) s = .next { s with status := ⟨false, true, true, .illegalCmd⟩, phase := .idle }

/-- AES_BLOCK_ENC writes AES_STATE only, and leaves exactly the state the step commands of the ten rounds leave (46_aes_block.md §2, §3). -/
def Obligations.AesBlockEncIsItsStepCommands : Prop :=
  ∀ s : State, ∃ q : Quad,
    exec .aesBlockEnc s = .next { s with regs := { s.regs with aesState := q }, status := okStatus, phase := .idle }
    ∧ execAll aesBlockSteps s = exec .aesBlockEnc s

/-- 45_aes_key_expansion.md R201: every entry of the S-box is the affine map of the GF(2^8) inverse (of 0 for 0) xor 0x63, and the S-box has
no fixed point. -/
def Obligations.AesSboxIsTheAffineInverse : Prop :=
  ∀ x : Byte, ∃ y : Byte, (if x = 0 then y = 0 else gfMul x y 8 = 1) ∧ sboxAes x = affineA y ^^^ 0x63 ∧ sboxAes x ≠ x

/-- PKCS7 padding to 16 appends `v = 16 − (len mod 16)` bytes of value `v`, from 1 to 16 of them; that the result has length
`16·(floor(len/16) + 1)` is the spec's own inference (47_aes_cbc.md §1). -/
def Obligations.PaddingFillsToTheNextBlock : Prop :=
  (∀ p : Bytes, ∃ v : Nat, v = 16 - p.length % 16 ∧ 1 ≤ v ∧ v ≤ 16
    ∧ pkcs7Pad p 16 = p ++ List.replicate v (BitVec.ofNat 8 v)
    ∧ (pkcs7Pad p 16).length = 16 * (p.length / 16 + 1))
  ∧ pkcs7Pad [] 16 = List.replicate 16 0x10
  ∧ pkcs7Pad [0x41, 0x42, 0x43] 16 = [0x41, 0x42, 0x43] ++ List.replicate 13 0x0D

/-- AES_CBC_ENC, whenever its checks pass, writes `N` bytes at DST_ADDR, block `i` the encryption of padded block `i` xor the ciphertext
block before it (the IV before the first), sets OUT_LEN to `N`, and changes no other byte, the IV's and the key's included, and no other
register (47_aes_cbc.md §1, §2). -/
def Obligations.AesCbcEncChainsTheBlocks : Prop :=
  ∀ s : State, AesCbcReady s →
    let q := pkcs7Pad (s.memRead s.regs.srcAddr.toNat s.regs.srcLen.toNat) 16
    let w := keyExpansion (s.memRead s.regs.keyAddr.toNat 16)
    let d := s.regs.dstAddr.toNat
    ∃ (t : State) (c : Nat → Bytes), exec .aesCbcEnc s = .next t
      ∧ t = { s with regs := { s.regs with outLen := t.regs.outLen }, dmem := t.dmem, status := okStatus, phase := .idle }
      ∧ t.regs.outLen.toNat = paddedLen s
      ∧ c 0 = s.memRead s.regs.ivAddr.toNat 16
      ∧ (∀ i, i < s.regs.srcLen.toNat / 16 + 1 →
          c (i + 1) = aesEncryptBlock (xorBytes ((q.drop (16 * i)).take 16) (c i)) w ∧ t.memRead (d + 16 * i) 16 = c (i + 1))
      ∧ ∀ x, x < d ∨ d + paddedLen s ≤ x → t.readByte x = s.readByte x

/-! ## PBKDF2 -/

/-- PBKDF2, whenever its checks pass, writes DKLEN bytes at DST_ADDR: byte `k` is the exclusive or over the ITER values `U` of block
`k/20 + 1` of their byte `k mod 20`, with `U_1` the HMAC of the salt and the big-endian block counter and each later `U` the HMAC of the one
before; OUT_LEN is DKLEN, and no other byte and no other register changes (44_pbkdf2.md §3, §4). -/
def Obligations.Pbkdf2WritesTheDerivedKey : Prop :=
  ∀ s : State, Pbkdf2Ready s →
    let p := s.memRead s.regs.srcAddr.toNat s.regs.srcLen.toNat
    let salt := s.memRead s.regs.saltAddr.toNat s.regs.saltLen.toNat
    let d := s.regs.dstAddr.toNat
    ∃ (t : State) (u : Nat → Nat → Bytes), exec .pbkdf2 s = .next t
      ∧ t = { s with regs := { s.regs with outLen := s.regs.dkLen }, dmem := t.dmem, status := okStatus, phase := .idle }
      ∧ (∀ i, u i 1 = hmacSha1 p (salt ++ int32be i)) ∧ (∀ i j, 1 ≤ j → u i (j + 1) = hmacSha1 p (u i j))
      ∧ (∀ k, k < s.regs.dkLen.toNat →
          t.readByte (d + k) =
            (List.range s.regs.iter.toNat).foldl (fun acc j => acc ^^^ (u (k / 20 + 1) (j + 1)).getD (k % 20) 0) 0)
      ∧ ∀ x, x < d ∨ d + s.regs.dkLen.toNat ≤ x → t.readByte x = s.readByte x

/-- A key longer than 64 bytes is hashed first, and an HMAC and a digest have 20 bytes (44_pbkdf2.md §1, §2). -/
def Obligations.LongHmacKeysAreHashedFirst : Prop :=
  ∀ k m : Bytes, (sha1 m).length = 20 ∧ (hmacSha1 k m).length = 20
    ∧ (64 < k.length → hmacSha1 k m = hmacSha1 (sha1 k) m)
    ∧ (k.length = 64 → hmacKey k = k)

/-- The derived key has exactly the length asked for, and a shorter one is a prefix of a longer one (44_pbkdf2.md §3, corner cases). -/
def Obligations.ShorterDerivedKeyIsAPrefix : Prop :=
  ∀ (p salt : Bytes) (c a b : Nat), (pbkdf2 p salt c a).length = a ∧ (a ≤ b → (pbkdf2 p salt c b).take a = pbkdf2 p salt c a)

/-- SHA-1 padding reaches a multiple of 64 bytes with the least number of zero bytes (44_pbkdf2.md §1). -/
def Obligations.Sha1PaddingIsLeast : Prop :=
  ∀ m : Bytes, ∃ z : Nat,
    sha1Pad m = m ++ [0x80] ++ List.replicate z 0x00 ++ bitsToBytes (BitVec.ofNat 64 (8 * m.length))
    ∧ (m.length + 1 + z + 8) % 64 = 0 ∧ (∀ y, y < z → (m.length + 1 + y + 8) % 64 ≠ 0)
    ∧ (sha1Pad m).length % 64 = 0

/-! ## Rules over all commands -/

/-- A buffer command's outcome and output do not depend on the key-bearing registers, and it changes none of them: "each call derives its own
subkeys/round keys from its own input" (10_state.md §2). -/
def Obligations.BufferCommandsUseNoKeyRegister : Prop :=
  ∀ (i : Instr) (s : State) (kh kl bh bl : Word) (key st : Quad) (sk : Vector (BitVec 48) 16) (rk : Vector Word 44),
    IsBufferCommand i →
    let s' := { s with regs := { s.regs with
      desKeyHi := kh, desKeyLo := kl, desBlkHi := bh, desBlkLo := bl, aesKey := key, aesState := st, desSk := sk, aesRk := rk } }
    ∃ t t', exec i s = .next t ∧ exec i s' = .next t'
      ∧ t.regs = { s.regs with outLen := t.regs.outLen } ∧ t'.regs = { s'.regs with outLen := t'.regs.outLen }
      ∧ t'.regs.outLen = t.regs.outLen ∧ t'.dmem = t.dmem ∧ t'.status = t.status

/-- No register command, nor NOP nor CLEAR, touches DMEM, OUT_LEN or an operand register of the buffer commands (20_memory.md §1;
10_state.md §2). -/
def Obligations.RegisterCommandsLeaveDmemAndBufferRegisters : Prop :=
  ∀ (i : Instr) (s : State), ¬ IsBufferCommand i → ∃ t, exec i s = .next t
    ∧ t = { s with regs := t.regs, status := t.status, phase := .idle }
    ∧ (∀ x, t.readByte x = s.readByte x)
    ∧ ∀ name ∈ [RegName.srcAddr, .srcLen, .dstAddr, .outLen, .keyAddr, .keyLen, .ivAddr, .saltAddr, .saltLen, .iter, .dkLen, .memsize],
        t.readReg name = s.readReg name

/-- DES_SK changes only by DES_KS, CLEAR and reset, and AES_RK only by AES_KEYEXP, CLEAR and reset, whatever the host and the engine do
(41_des_key_schedule.md §2; 10_state.md §2). -/
def Obligations.OnlyTheirCommandsChangeTheKeyFiles : Prop :=
  ∀ s t : State, step s = .next t →
    (t.regs.desSk ≠ s.regs.desSk →
      (∃ w, s.phase = .pending w ∧ (decode w = .ok .desKs ∨ decode w = .ok .clear)) ∨ ∃ rest, s.host = .reset :: rest)
    ∧ (t.regs.aesRk ≠ s.regs.aesRk →
      (∃ w, s.phase = .pending w ∧ (decode w = .ok .aesKeyexp ∨ decode w = .ok .clear)) ∨ ∃ rest, s.host = .reset :: rest)

/-- 20_memory.md R67: two ranges overlap when both have bytes and share an address; a range of length 0 overlaps nothing. -/
def Obligations.OverlapMeansASharedAddress : Prop :=
  ∀ a n b m : Nat,
    (overlap (a, n) (b, m) = true ↔ n > 0 ∧ m > 0 ∧ a < b + m ∧ b < a + n)
    ∧ (overlap (a, n) (b, m) = true ↔ ∃ x, (a ≤ x ∧ x < a + n) ∧ (b ≤ x ∧ x < b + m))
    ∧ overlap (a, 0) (b, m) = false ∧ overlap (a, n) (b, 0) = false

/-- What the commands give straight after reset, for every DMEM_SIZE: consequences the spec marks as its own inference
(70_reset_and_hazards.md §1). -/
def Obligations.CommandsStraightAfterReset : Prop :=
  ∀ n : Word,
    (∀ d : Bool, ∃ t, exec (.desBlock d) (State.resetWith n) = .next t
      ∧ t.regs.desBlkHi = 0x8CA64DE9 ∧ t.regs.desBlkLo = 0xC1B123A7)
    ∧ (State.resetWith n).regs.desSk = keySchedule 0
    ∧ (∃ t, exec .aesBlockEnc (State.resetWith n) = .next t
      ∧ t.regs.aesState = ⟨0x36363636, 0x36363636, 0x36363636, 0x36363636⟩)
    ∧ (∃ t, exec .desEcbDec (State.resetWith n) = .next t ∧ t.status.ecode = .invalidLength)
    ∧ (∃ t, exec .aesCbcEnc (State.resetWith n) = .next t ∧ t.status.ecode = .invalidKey)
    ∧ (∃ t, exec .pbkdf2 (State.resetWith n) = .next t ∧ t.status.ecode = .invalidParam)

/-! ## The host -/

/-- 60_exceptions.md R250: a write of any word to CMD while idle is accepted in one host step, which makes the phase PENDING(w), sets BUSY,
clears DONE, ERR and ECODE and changes nothing else of the CORE; while BUSY it is not accepted and is a hazard. -/
def Obligations.CmdWriteIsAcceptedWhileIdle : Prop :=
  ∀ (s : State) (w : Word) (rest : List HostOp), s.host = .regWrite 0x000 32 w :: rest →
    (s.phase = .idle → s.status.busy = false →
      ∃ t, step s = .next t
        ∧ t = { s with host := rest, phase := .pending w, status := ⟨true, false, false, .none⟩, delay := t.delay, draws := t.draws })
    ∧ (∀ v, s.phase = .pending v → s.delay ≠ 0 → s.status.busy = true →
      ∃ t, step s = .next t ∧ t = { s with host := rest, hazard := true, delay := t.delay } ∧ t.phase = .pending v)

/-- While idle, an aligned 32-bit read records the window's value and changes nothing else; and every RW register but CMD reads back the value
a legal host write stored, the write changing no other register and nothing else (10_state.md §2; 20_memory.md §4). -/
def Obligations.WritableRegistersReadBack : Prop :=
  ∀ s : State, s.status.busy = false →
    (∀ off : BitVec 12, off.toNat % 4 = 0 →
      s.hostAccess (.regRead off 32) = { s with results := s.results ++ [.reg off (s.windowRead off)] })
    ∧ ∀ (name : RegName) (v : Word), regWritable name = true →
      ∃ t, s.hostAccess (.regWrite (regOffset name) 32 v) = t
        ∧ t.windowRead (regOffset name) = v
        ∧ (∀ other, other ≠ name → t.windowRead (regOffset other) = s.windowRead (regOffset other))
        ∧ t = { s with regs := t.regs }

/-- 10_state.md R45: a host write to an RO register is ignored and changes no state. -/
def Obligations.ReadOnlyWritesAreIgnored : Prop :=
  ∀ (s : State) (v : Word) (i : Fin 16) (j : Fin 44), s.status.busy = false →
    ∀ name ∈ [RegName.status, .outLen, .memsize, .desSkHi i, .desSkLo i, .aesRk j],
      s.hostAccess (.regWrite (regOffset name) 32 v) = s

/-- 10_state.md R44: reserved offsets read 0 and ignore writes, reserved fields read 0, and a CMD word with a reserved field not 0 is
illegal. -/
def Obligations.ReservedOffsetsAndFieldsReadZero : Prop :=
  (∀ (s : State) (off : BitVec 12) (v : Word), ReservedOffset off → off.toNat % 4 = 0 →
    s.windowRead off = 0 ∧ (s.status.busy = false → s.hostAccess (.regWrite off 32 v) = s))
  ∧ (∀ s : State, s.windowRead 0x000 = 0
      ∧ (s.windowRead 0x004).extractLsb' 3 5 = 0 ∧ (s.windowRead 0x004).extractLsb' 16 16 = 0
      ∧ ∀ i : Fin 16, (s.windowRead (regOffset (.desSkHi i))).extractLsb' 16 16 = 0)
  ∧ ∀ w : Word, w.extractLsb' 9 3 ≠ 0 ∨ w.extractLsb' 16 16 ≠ 0 → ∃ r, decode w = .error r

/-- The register window shows DES_SK and AES_RK as 10_state.md §2 lays them out: the high and low part of each subkey, and each round-key
word, at its offset. -/
def Obligations.KeyFilesAreReadableAtTheirOffsets : Prop :=
  ∀ (s : State),
    (∀ i : Fin 16, (s.windowRead (BitVec.ofNat 12 (0x080 + 8 * i.val))).setWidth 16 ++ s.windowRead (BitVec.ofNat 12 (0x084 + 8 * i.val))
      = s.regs.desSk[i])
    ∧ ∀ j : Fin 44, s.windowRead (BitVec.ofNat 12 (0x100 + 4 * j.val)) = s.regs.aesRk[j]

/-- STATUS as the host reads it has BUSY, DONE and ERR in bits 0 to 2, ECODE in bits 15:8 and 0 elsewhere (10_state.md §2). -/
def Obligations.StatusWordFields : Prop :=
  ∀ s : State,
    let v := s.windowRead 0x004
    v.getLsbD 0 = s.status.busy ∧ v.getLsbD 1 = s.status.done ∧ v.getLsbD 2 = s.status.err
    ∧ v.extractLsb' 8 8 = ecodeByte s.status.ecode ∧ v.extractLsb' 3 5 = 0 ∧ v.extractLsb' 16 16 = 0

/-- 70_reset_and_hazards.md R290: the hazardous host accesses set the mark; a hazardous write does nothing else and a hazardous read returns
some value and changes nothing else; the mark is sticky, cleared only by reset, and nothing but a hazard sets it. -/
def Obligations.HazardsMarkAndHaveNoEffect : Prop :=
  (∀ (s : State) (off : BitVec 12) (width : Nat) (v : Word), IsHazard s (.regWrite off width v) →
    s.hostAccess (.regWrite off width v) = { s with hazard := true })
  ∧ (∀ (s : State) (a : Nat) (b : Byte), IsHazard s (.memWrite a b) → s.hostAccess (.memWrite a b) = { s with hazard := true })
  ∧ (∀ (s : State) (off : BitVec 12) (width : Nat), IsHazard s (.regRead off width) →
    ∃ v d, s.hostAccess (.regRead off width) = { s with hazard := true, results := s.results ++ [.reg off v], draws := d })
  ∧ (∀ (s : State) (a : Nat), IsHazard s (.memRead a) →
    ∃ b d, s.hostAccess (.memRead a) = { s with hazard := true, results := s.results ++ [.mem a b], draws := d })
  ∧ (∀ s t : State, step s = .next t → s.hazard = true → t.hazard = true ∨ ∃ rest, s.host = .reset :: rest)
  ∧ (∀ s t : State, step s = .next t → t.hazard = true → s.hazard = true ∨ ∃ op rest, s.host = op :: rest ∧ IsHazard s op)
  ∧ ∀ s : State, (s.hostAccess .reset).hazard = false

/-- 70_reset_and_hazards.md R291: while BUSY a read of STATUS returns the true STATUS, and a read of any other register or of any DMEM byte
is no hazard and returns some value; after the engine step STATUS reads as completed. -/
def Obligations.ReadsWhileBusy : Prop :=
  (∀ s : State, Inv s → s.status.busy = true →
    s.hostAccess (.regRead 0x004 32) = { s with results := s.results ++ [.reg 0x004 0x00000001] })
  ∧ (∀ (s : State) (off : BitVec 12), s.status.busy = true → off ≠ 0x004 → off.toNat % 4 = 0 →
    ∃ v d, s.hostAccess (.regRead off 32) = { s with results := s.results ++ [.reg off v], draws := d })
  ∧ (∀ (s : State) (a : Nat), s.status.busy = true → a < s.memsize.toNat →
    ∃ b d, s.hostAccess (.memRead a) = { s with results := s.results ++ [.mem a b], draws := d })
  ∧ ∀ (s t : State) (w : Word), engineStep w s = .next t → t.status.busy = false ∧ t.status.done = true
      ∧ t.hostAccess (.regRead 0x004 32) = { t with results := t.results ++ [.reg 0x004 (statusWord t.status)] }

/-- Reset sets every register the window shows to 0 but MEMSIZE, STATUS to 0 and the phase to IDLE, forgets every written DMEM byte, clears
the hazard mark and keeps DMEM_SIZE (10_state.md §5; 70_reset_and_hazards.md §1). That an unwritten byte reads `Config.dmemInit` of the new
epoch is the model's form of the open parameter DMEM_INIT (log entry 2). -/
def Obligations.ResetSetsEveryRegister : Prop :=
  (∀ (s : State) (off : BitVec 12), off.toNat % 4 = 0 →
    (s.hostAccess .reset).windowRead off = if off = 0x034 then s.memsize else 0)
  ∧ (∀ s : State, (s.hostAccess .reset).phase = .idle ∧ (s.hostAccess .reset).hazard = false
      ∧ ∀ x, (s.hostAccess .reset).readByte x = Config.dmemInit (s.epoch + 1) x)
  ∧ (∀ off : BitVec 12, off.toNat % 4 = 0 → State.reset.windowRead off = if off = 0x034 then Config.dmemSize else 0)
  ∧ State.reset.phase = .idle ∧ State.reset.hazard = false

/-- Reset asserted while a command is pending abandons it: the phase is IDLE, STATUS is 0, every register is at its reset value, and the next
step is the host's, not the command's (70_reset_and_hazards.md §1). -/
def Obligations.ResetAbandonsThePendingCommand : Prop :=
  ∀ (s : State) (w : Word) (rest : List HostOp), s.phase = .pending w → s.delay ≠ 0 → s.host = .reset :: rest →
    ∃ t, step s = .next t ∧ t.phase = .idle ∧ statusWord t.status = 0x00000000 ∧ t.regs = Regs.reset ∧ t.host = rest
      ∧ t.memsize = s.memsize ∧ step t = .next t.hostStep

/-- The host's DMEM byte port while idle: a write inside DMEM stores the byte and changes no other byte and nothing else, a read inside DMEM
records the byte and changes nothing else (20_memory.md §4). -/
def Obligations.HostBytePortStoresAndReads : Prop :=
  ∀ (s : State) (a : Nat) (b : Byte), s.status.busy = false → a < s.memsize.toNat →
    (∃ t, s.hostAccess (.memWrite a b) = t ∧ t = { s with dmem := t.dmem } ∧ t.readByte a = b ∧ ∀ x, x ≠ a → t.readByte x = s.readByte x)
    ∧ s.hostAccess (.memRead a) = { s with results := s.results ++ [.mem a (s.readByte a)] }

/-- A pending command runs on the registers and the DMEM it was issued with: no host access made while it is pending changes them, and if no
reset comes its engine step does, after exactly the remaining delay (20_memory.md §4; 70_reset_and_hazards.md §4). The delay is the model's
form of the unspecified number of host steps (log entry 5); that the engine step comes at all is the fairness of R295 (log entry 17). -/
def Obligations.PendingCommandRunsUndisturbed : Prop :=
  ∀ (s : State) (w : Word), Inv s → s.phase = .pending w → HostOp.reset ∉ s.host →
    ∃ t, runSteps s.delay s = .next t ∧ t.phase = .pending w ∧ t.regs = s.regs ∧ t.dmem = s.dmem ∧ t.epoch = s.epoch
      ∧ t.memsize = s.memsize ∧ t.status = s.status ∧ step t = engineStep w t

/-- A host's `wait` ends: with a command pending, after the remaining delay, the engine step and one more STATUS read the host is past its
`wait`, and that last read had bit 0 = 0 (30_encoding.md §4; 70_reset_and_hazards.md §4). The delay is the model's (log entry 5), and
that the wait ends rests on the fairness of R295 (log entry 17). -/
def Obligations.WaitEndsAfterTheCommand : Prop :=
  ∀ (s : State) (w : Word) (rest : List HostOp), Inv s → s.phase = .pending w → s.host = .wait :: rest →
    ∃ (t : State) (v : Word), runSteps (s.delay + 2) s = .next t ∧ t.host = rest ∧ t.phase = .idle
      ∧ t.results.getLast? = some (.reg 0x004 v) ∧ v.getLsbD 0 = false

/-- `cmd M` issues exactly the command M: written to CMD while idle, its word is accepted and decodes to M; and an assembler rejects an
index out of range (30_encoding.md §4). -/
def Obligations.CmdStatementIssuesItsCommand : Prop :=
  (∀ i : Instr, i.wellFormed = false → expandStmt (.cmd i) = none)
  ∧ ∀ (i : Instr) (s : State) (ops rest : List HostOp), expandStmt (.cmd i) = some ops → s.host = ops ++ rest →
      s.phase = .idle → s.status.busy = false →
      ∃ t w, step s = .next t ∧ t.phase = .pending w ∧ decode w = .ok i ∧ t.host = rest ∧ t.regs = s.regs ∧ t.dmem = s.dmem
end

