-- ==== Sys2Proof/Laws/Bits.lean ====
section
/-! SUPPORT. The bit and byte conversions: lengths, the number a list of bits stands for, and the bits of a permutation
(40_des_primitives.md R110 to R112). -/

namespace Sys2Proof.Machine

/-! ## Lengths -/

@[simp] theorem bitsToBytes_length {n : Nat} (x : BitVec n) : (bitsToBytes x).length = n / 8 := by simp [bitsToBytes]

@[simp] theorem quadBytes_length (q : Quad) : (quadBytes q).length = 16 := by simp [quadBytes]

@[simp] theorem xorBytes_length (a b : Bytes) : (xorBytes a b).length = min a.length b.length := by simp [xorBytes]

@[simp] theorem blocks_length (size count : Nat) (b : Bytes) : (blocks size count b).length = count := by
  induction count generalizing b with
  | zero => rfl
  | succ _ ih => simp [blocks, ih]

/-- Every block of a long enough sequence is full. -/
theorem blocks_full {size count : Nat} {b q : Bytes} (h : size * count ≤ b.length) (hq : q ∈ blocks size count b) :
    q.length = size := by
  induction count generalizing b with
  | zero => simp [blocks] at hq
  | succ n ih =>
    rw [Nat.mul_succ] at h
    rcases List.mem_cons.1 hq with rfl | hq
    · simp; omega
    · exact ih (b := b.drop size) (by simp; omega) hq

/-- The blocks of a sequence of exactly that length, put together again. -/
theorem blocks_flatten {size count : Nat} {b : Bytes} (h : b.length = size * count) : (blocks size count b).flatten = b := by
  induction count generalizing b with
  | zero => simp at h; simp [blocks, h]
  | succ n ih =>
    rw [Nat.mul_succ] at h
    rw [blocks, List.flatten_cons, ih (b := b.drop size) (by simp; omega), List.take_append_drop]

/-! ## Bits -/

theorem bitsToNat_foldl (bs : List Bool) (acc : Nat) :
    bs.foldl (fun acc b => 2 * acc + b.toNat) acc = acc * 2 ^ bs.length + bitsToNat bs := by
  induction bs generalizing acc with
  | nil => simp [bitsToNat]
  | cons b bs ih =>
    simp only [List.foldl_cons, bitsToNat, List.length_cons, Nat.pow_succ]
    rw [ih, ih (2 * 0 + b.toNat)]
    ring

theorem bitsToNat_cons (b : Bool) (bs : List Bool) : bitsToNat (b :: bs) = b.toNat * 2 ^ bs.length + bitsToNat bs := by
  have := bitsToNat_foldl bs b.toNat
  simpa [bitsToNat] using this

theorem bitsToNat_lt (bs : List Bool) : bitsToNat bs < 2 ^ bs.length := by
  induction bs with
  | nil => simp [bitsToNat]
  | cons b bs ih =>
    rw [bitsToNat_cons, List.length_cons, Nat.pow_succ]
    have : b.toNat * 2 ^ bs.length ≤ 1 * 2 ^ bs.length := Nat.mul_le_mul_right _ (Bool.toNat_le b)
    omega

/-- Bit `i` of the number, counted from the last digit. -/
theorem bitsToNat_testBit (bs : List Bool) (i : Nat) :
    (bitsToNat bs).testBit i = (decide (i < bs.length) && bs.getD (bs.length - 1 - i) false) := by
  induction bs with
  | nil => simp [bitsToNat]
  | cons b bs ih =>
    rw [bitsToNat_cons]
    have hlt := bitsToNat_lt bs
    rw [Nat.mul_comm, Nat.testBit_two_pow_mul_add _ hlt]
    by_cases hi : i < bs.length
    · have e : bs.length - i = bs.length - 1 - i + 1 := by omega
      simp [hi, ih, Nat.lt_succ_of_lt hi, e]
    · by_cases he : i = bs.length
      · subst he; cases b <;> simp
      · have h1 : ¬ i < bs.length + 1 := by omega
        obtain ⟨j, hj⟩ : ∃ j, i - bs.length = j + 1 := ⟨i - bs.length - 1, by omega⟩
        cases b <;> simp [hi, h1, hj, Nat.testBit_succ]

/-- The bits of a permutation: hardware bit `i` of the result is the input's table position at entry `m − i` of the table
(40_des_primitives.md R112). -/
theorem permute_getLsbD {m n : Nat} (x : BitVec n) (table : List Nat) (h : table.length = m) (i : Nat) (hi : i < m) :
    (permute m x table).getLsbD i = tablePos x (table.getD (m - 1 - i) 0) := by
  have hk : m - 1 - i < table.length := by omega
  simp only [permute, BitVec.getLsbD_ofNat, bitsToNat_testBit, List.length_map, h, hi, decide_true, Bool.true_and]
  simp [List.getD_eq_getElem?_getD, hk]

end Sys2Proof.Machine
end

