-- ==== Sys2Proof/Laws/State.lean ====
section
/-! SUPPORT. One lemma per field per update of State and of the registers, each true by unfolding, so that no later proof unfolds a record
update. -/

namespace Sys2Proof.Machine

/-! ## The state -/

@[simp] theorem State.setRegs_regs (s : State) (r : Regs) : (s.setRegs r).regs = r := rfl
@[simp] theorem State.setRegs_status (s : State) (r : Regs) : (s.setRegs r).status = s.status := rfl
@[simp] theorem State.setRegs_phase (s : State) (r : Regs) : (s.setRegs r).phase = s.phase := rfl
@[simp] theorem State.setRegs_memsize (s : State) (r : Regs) : (s.setRegs r).memsize = s.memsize := rfl
@[simp] theorem State.setRegs_dmem (s : State) (r : Regs) : (s.setRegs r).dmem = s.dmem := rfl
@[simp] theorem State.setRegs_hazard (s : State) (r : Regs) : (s.setRegs r).hazard = s.hazard := rfl
@[simp] theorem State.setRegs_epoch (s : State) (r : Regs) : (s.setRegs r).epoch = s.epoch := rfl
@[simp] theorem State.setRegs_delay (s : State) (r : Regs) : (s.setRegs r).delay = s.delay := rfl
@[simp] theorem State.setRegs_draws (s : State) (r : Regs) : (s.setRegs r).draws = s.draws := rfl
@[simp] theorem State.setRegs_host (s : State) (r : Regs) : (s.setRegs r).host = s.host := rfl
@[simp] theorem State.setRegs_results (s : State) (r : Regs) : (s.setRegs r).results = s.results := rfl

@[simp] theorem State.memWrite_regs (s : State) (a : Nat) (bs : Bytes) : (s.memWrite a bs).regs = s.regs := rfl
@[simp] theorem State.memWrite_status (s : State) (a : Nat) (bs : Bytes) : (s.memWrite a bs).status = s.status := rfl
@[simp] theorem State.memWrite_phase (s : State) (a : Nat) (bs : Bytes) : (s.memWrite a bs).phase = s.phase := rfl
@[simp] theorem State.memWrite_memsize (s : State) (a : Nat) (bs : Bytes) : (s.memWrite a bs).memsize = s.memsize := rfl
@[simp] theorem State.memWrite_dmem (s : State) (a : Nat) (bs : Bytes) : (s.memWrite a bs).dmem = memInsertAll s.dmem a bs := rfl
@[simp] theorem State.memWrite_hazard (s : State) (a : Nat) (bs : Bytes) : (s.memWrite a bs).hazard = s.hazard := rfl
@[simp] theorem State.memWrite_epoch (s : State) (a : Nat) (bs : Bytes) : (s.memWrite a bs).epoch = s.epoch := rfl
@[simp] theorem State.memWrite_delay (s : State) (a : Nat) (bs : Bytes) : (s.memWrite a bs).delay = s.delay := rfl
@[simp] theorem State.memWrite_draws (s : State) (a : Nat) (bs : Bytes) : (s.memWrite a bs).draws = s.draws := rfl
@[simp] theorem State.memWrite_host (s : State) (a : Nat) (bs : Bytes) : (s.memWrite a bs).host = s.host := rfl
@[simp] theorem State.memWrite_results (s : State) (a : Nat) (bs : Bytes) : (s.memWrite a bs).results = s.results := rfl

@[simp] theorem State.complete_regs (s : State) (e : ECode) : (s.complete e).regs = s.regs := rfl
@[simp] theorem State.complete_status (s : State) (e : ECode) : (s.complete e).status = completedStatus e := rfl
@[simp] theorem State.complete_phase (s : State) (e : ECode) : (s.complete e).phase = .idle := rfl
@[simp] theorem State.complete_memsize (s : State) (e : ECode) : (s.complete e).memsize = s.memsize := rfl
@[simp] theorem State.complete_dmem (s : State) (e : ECode) : (s.complete e).dmem = s.dmem := rfl
@[simp] theorem State.complete_hazard (s : State) (e : ECode) : (s.complete e).hazard = s.hazard := rfl
@[simp] theorem State.complete_epoch (s : State) (e : ECode) : (s.complete e).epoch = s.epoch := rfl
@[simp] theorem State.complete_delay (s : State) (e : ECode) : (s.complete e).delay = s.delay := rfl
@[simp] theorem State.complete_draws (s : State) (e : ECode) : (s.complete e).draws = s.draws := rfl
@[simp] theorem State.complete_host (s : State) (e : ECode) : (s.complete e).host = s.host := rfl
@[simp] theorem State.complete_results (s : State) (e : ECode) : (s.complete e).results = s.results := rfl

@[simp] theorem State.completeOk_regs (s : State) : (s.completeOk).regs = s.regs := rfl
@[simp] theorem State.completeOk_status (s : State) : (s.completeOk).status = completedStatus .none := rfl
@[simp] theorem State.completeOk_phase (s : State) : (s.completeOk).phase = .idle := rfl
@[simp] theorem State.completeOk_memsize (s : State) : (s.completeOk).memsize = s.memsize := rfl
@[simp] theorem State.completeOk_dmem (s : State) : (s.completeOk).dmem = s.dmem := rfl
@[simp] theorem State.completeOk_hazard (s : State) : (s.completeOk).hazard = s.hazard := rfl
@[simp] theorem State.completeOk_epoch (s : State) : (s.completeOk).epoch = s.epoch := rfl
@[simp] theorem State.completeOk_delay (s : State) : (s.completeOk).delay = s.delay := rfl
@[simp] theorem State.completeOk_draws (s : State) : (s.completeOk).draws = s.draws := rfl
@[simp] theorem State.completeOk_host (s : State) : (s.completeOk).host = s.host := rfl
@[simp] theorem State.completeOk_results (s : State) : (s.completeOk).results = s.results := rfl

@[simp] theorem State.raise_regs (s : State) (e : ECode) : (s.raise e).regs = s.regs := rfl
@[simp] theorem State.raise_status (s : State) (e : ECode) : (s.raise e).status = completedStatus e := rfl
@[simp] theorem State.raise_phase (s : State) (e : ECode) : (s.raise e).phase = .idle := rfl
@[simp] theorem State.raise_memsize (s : State) (e : ECode) : (s.raise e).memsize = s.memsize := rfl
@[simp] theorem State.raise_dmem (s : State) (e : ECode) : (s.raise e).dmem = s.dmem := rfl
@[simp] theorem State.raise_hazard (s : State) (e : ECode) : (s.raise e).hazard = s.hazard := rfl
@[simp] theorem State.raise_epoch (s : State) (e : ECode) : (s.raise e).epoch = s.epoch := rfl
@[simp] theorem State.raise_delay (s : State) (e : ECode) : (s.raise e).delay = s.delay := rfl
@[simp] theorem State.raise_draws (s : State) (e : ECode) : (s.raise e).draws = s.draws := rfl
@[simp] theorem State.raise_host (s : State) (e : ECode) : (s.raise e).host = s.host := rfl
@[simp] theorem State.raise_results (s : State) (e : ECode) : (s.raise e).results = s.results := rfl

@[simp] theorem State.accept_regs (s : State) (w : Word) : (s.accept w).regs = s.regs := rfl
@[simp] theorem State.accept_status (s : State) (w : Word) : (s.accept w).status = acceptedStatus := rfl
@[simp] theorem State.accept_phase (s : State) (w : Word) : (s.accept w).phase = .pending w := rfl
@[simp] theorem State.accept_memsize (s : State) (w : Word) : (s.accept w).memsize = s.memsize := rfl
@[simp] theorem State.accept_dmem (s : State) (w : Word) : (s.accept w).dmem = s.dmem := rfl
@[simp] theorem State.accept_hazard (s : State) (w : Word) : (s.accept w).hazard = s.hazard := rfl
@[simp] theorem State.accept_epoch (s : State) (w : Word) : (s.accept w).epoch = s.epoch := rfl
@[simp] theorem State.accept_delay (s : State) (w : Word) : (s.accept w).delay = Config.latency s.draws := rfl
@[simp] theorem State.accept_draws (s : State) (w : Word) : (s.accept w).draws = s.draws + 1 := rfl
@[simp] theorem State.accept_host (s : State) (w : Word) : (s.accept w).host = s.host := rfl
@[simp] theorem State.accept_results (s : State) (w : Word) : (s.accept w).results = s.results := rfl

@[simp] theorem State.coreReset_regs (s : State) : (s.coreReset).regs = Regs.reset := rfl
@[simp] theorem State.coreReset_status (s : State) : (s.coreReset).status = Status.reset := rfl
@[simp] theorem State.coreReset_phase (s : State) : (s.coreReset).phase = .idle := rfl
@[simp] theorem State.coreReset_memsize (s : State) : (s.coreReset).memsize = s.memsize := rfl
@[simp] theorem State.coreReset_dmem (s : State) : (s.coreReset).dmem = [] := rfl
@[simp] theorem State.coreReset_hazard (s : State) : (s.coreReset).hazard = false := rfl
@[simp] theorem State.coreReset_epoch (s : State) : (s.coreReset).epoch = s.epoch + 1 := rfl
@[simp] theorem State.coreReset_delay (s : State) : (s.coreReset).delay = 0 := rfl
@[simp] theorem State.coreReset_draws (s : State) : (s.coreReset).draws = s.draws := rfl
@[simp] theorem State.coreReset_host (s : State) : (s.coreReset).host = s.host := rfl
@[simp] theorem State.coreReset_results (s : State) : (s.coreReset).results = s.results := rfl

@[simp] theorem State.markHazard_regs (s : State) : (s.markHazard).regs = s.regs := rfl
@[simp] theorem State.markHazard_status (s : State) : (s.markHazard).status = s.status := rfl
@[simp] theorem State.markHazard_phase (s : State) : (s.markHazard).phase = s.phase := rfl
@[simp] theorem State.markHazard_memsize (s : State) : (s.markHazard).memsize = s.memsize := rfl
@[simp] theorem State.markHazard_dmem (s : State) : (s.markHazard).dmem = s.dmem := rfl
@[simp] theorem State.markHazard_hazard (s : State) : (s.markHazard).hazard = true := rfl
@[simp] theorem State.markHazard_epoch (s : State) : (s.markHazard).epoch = s.epoch := rfl
@[simp] theorem State.markHazard_delay (s : State) : (s.markHazard).delay = s.delay := rfl
@[simp] theorem State.markHazard_draws (s : State) : (s.markHazard).draws = s.draws := rfl
@[simp] theorem State.markHazard_host (s : State) : (s.markHazard).host = s.host := rfl
@[simp] theorem State.markHazard_results (s : State) : (s.markHazard).results = s.results := rfl

@[simp] theorem State.record_regs (s : State) (r : HostResult) : (s.record r).regs = s.regs := rfl
@[simp] theorem State.record_status (s : State) (r : HostResult) : (s.record r).status = s.status := rfl
@[simp] theorem State.record_phase (s : State) (r : HostResult) : (s.record r).phase = s.phase := rfl
@[simp] theorem State.record_memsize (s : State) (r : HostResult) : (s.record r).memsize = s.memsize := rfl
@[simp] theorem State.record_dmem (s : State) (r : HostResult) : (s.record r).dmem = s.dmem := rfl
@[simp] theorem State.record_hazard (s : State) (r : HostResult) : (s.record r).hazard = s.hazard := rfl
@[simp] theorem State.record_epoch (s : State) (r : HostResult) : (s.record r).epoch = s.epoch := rfl
@[simp] theorem State.record_delay (s : State) (r : HostResult) : (s.record r).delay = s.delay := rfl
@[simp] theorem State.record_draws (s : State) (r : HostResult) : (s.record r).draws = s.draws := rfl
@[simp] theorem State.record_host (s : State) (r : HostResult) : (s.record r).host = s.host := rfl
@[simp] theorem State.record_results (s : State) (r : HostResult) : (s.record r).results = s.results ++ [r] := rfl

@[simp] theorem State.recordFreeWord_regs (s : State) (off : BitVec 12) : (s.recordFreeWord off).regs = s.regs := rfl
@[simp] theorem State.recordFreeWord_status (s : State) (off : BitVec 12) : (s.recordFreeWord off).status = s.status := rfl
@[simp] theorem State.recordFreeWord_phase (s : State) (off : BitVec 12) : (s.recordFreeWord off).phase = s.phase := rfl
@[simp] theorem State.recordFreeWord_memsize (s : State) (off : BitVec 12) : (s.recordFreeWord off).memsize = s.memsize := rfl
@[simp] theorem State.recordFreeWord_dmem (s : State) (off : BitVec 12) : (s.recordFreeWord off).dmem = s.dmem := rfl
@[simp] theorem State.recordFreeWord_hazard (s : State) (off : BitVec 12) : (s.recordFreeWord off).hazard = s.hazard := rfl
@[simp] theorem State.recordFreeWord_epoch (s : State) (off : BitVec 12) : (s.recordFreeWord off).epoch = s.epoch := rfl
@[simp] theorem State.recordFreeWord_delay (s : State) (off : BitVec 12) : (s.recordFreeWord off).delay = s.delay := rfl
@[simp] theorem State.recordFreeWord_draws (s : State) (off : BitVec 12) : (s.recordFreeWord off).draws = s.draws + 1 := rfl
@[simp] theorem State.recordFreeWord_host (s : State) (off : BitVec 12) : (s.recordFreeWord off).host = s.host := rfl
@[simp] theorem State.recordFreeWord_results (s : State) (off : BitVec 12) : (s.recordFreeWord off).results = s.results ++ [.reg off (Config.freeWord s.draws)] := rfl

@[simp] theorem State.recordFreeByte_regs (s : State) (a : Nat) : (s.recordFreeByte a).regs = s.regs := rfl
@[simp] theorem State.recordFreeByte_status (s : State) (a : Nat) : (s.recordFreeByte a).status = s.status := rfl
@[simp] theorem State.recordFreeByte_phase (s : State) (a : Nat) : (s.recordFreeByte a).phase = s.phase := rfl
@[simp] theorem State.recordFreeByte_memsize (s : State) (a : Nat) : (s.recordFreeByte a).memsize = s.memsize := rfl
@[simp] theorem State.recordFreeByte_dmem (s : State) (a : Nat) : (s.recordFreeByte a).dmem = s.dmem := rfl
@[simp] theorem State.recordFreeByte_hazard (s : State) (a : Nat) : (s.recordFreeByte a).hazard = s.hazard := rfl
@[simp] theorem State.recordFreeByte_epoch (s : State) (a : Nat) : (s.recordFreeByte a).epoch = s.epoch := rfl
@[simp] theorem State.recordFreeByte_delay (s : State) (a : Nat) : (s.recordFreeByte a).delay = s.delay := rfl
@[simp] theorem State.recordFreeByte_draws (s : State) (a : Nat) : (s.recordFreeByte a).draws = s.draws + 1 := rfl
@[simp] theorem State.recordFreeByte_host (s : State) (a : Nat) : (s.recordFreeByte a).host = s.host := rfl
@[simp] theorem State.recordFreeByte_results (s : State) (a : Nat) : (s.recordFreeByte a).results = s.results ++ [.mem a (Config.freeByte s.draws)] := rfl

@[simp] theorem State.withHost_regs (s : State) (p : List HostOp) : (s.withHost p).regs = s.regs := rfl
@[simp] theorem State.withHost_status (s : State) (p : List HostOp) : (s.withHost p).status = s.status := rfl
@[simp] theorem State.withHost_phase (s : State) (p : List HostOp) : (s.withHost p).phase = s.phase := rfl
@[simp] theorem State.withHost_memsize (s : State) (p : List HostOp) : (s.withHost p).memsize = s.memsize := rfl
@[simp] theorem State.withHost_dmem (s : State) (p : List HostOp) : (s.withHost p).dmem = s.dmem := rfl
@[simp] theorem State.withHost_hazard (s : State) (p : List HostOp) : (s.withHost p).hazard = s.hazard := rfl
@[simp] theorem State.withHost_epoch (s : State) (p : List HostOp) : (s.withHost p).epoch = s.epoch := rfl
@[simp] theorem State.withHost_delay (s : State) (p : List HostOp) : (s.withHost p).delay = s.delay := rfl
@[simp] theorem State.withHost_draws (s : State) (p : List HostOp) : (s.withHost p).draws = s.draws := rfl
@[simp] theorem State.withHost_host (s : State) (p : List HostOp) : (s.withHost p).host = p := rfl
@[simp] theorem State.withHost_results (s : State) (p : List HostOp) : (s.withHost p).results = s.results := rfl

@[simp] theorem State.withFetchWord_regs (s : State) (nbits w : Nat) : (s.withFetchWord nbits w).regs = s.regs := rfl
@[simp] theorem State.withFetchWord_status (s : State) (nbits w : Nat) : (s.withFetchWord nbits w).status = acceptedStatus := rfl
@[simp] theorem State.withFetchWord_phase (s : State) (nbits w : Nat) : (s.withFetchWord nbits w).phase = .pending (tableWord nbits w) := rfl
@[simp] theorem State.withFetchWord_memsize (s : State) (nbits w : Nat) : (s.withFetchWord nbits w).memsize = s.memsize := rfl
@[simp] theorem State.withFetchWord_dmem (s : State) (nbits w : Nat) : (s.withFetchWord nbits w).dmem = s.dmem := rfl
@[simp] theorem State.withFetchWord_hazard (s : State) (nbits w : Nat) : (s.withFetchWord nbits w).hazard = s.hazard := rfl
@[simp] theorem State.withFetchWord_epoch (s : State) (nbits w : Nat) : (s.withFetchWord nbits w).epoch = s.epoch := rfl
@[simp] theorem State.withFetchWord_delay (s : State) (nbits w : Nat) : (s.withFetchWord nbits w).delay = 0 := rfl
@[simp] theorem State.withFetchWord_draws (s : State) (nbits w : Nat) : (s.withFetchWord nbits w).draws = s.draws := rfl
@[simp] theorem State.withFetchWord_host (s : State) (nbits w : Nat) : (s.withFetchWord nbits w).host = s.host := rfl
@[simp] theorem State.withFetchWord_results (s : State) (nbits w : Nat) : (s.withFetchWord nbits w).results = s.results := rfl

/-! ## The registers -/

@[simp] theorem Regs.setOutLen_srcAddr (r : Regs) (v : Word) : (r.setOutLen v).srcAddr = r.srcAddr := rfl
@[simp] theorem Regs.setOutLen_srcLen (r : Regs) (v : Word) : (r.setOutLen v).srcLen = r.srcLen := rfl
@[simp] theorem Regs.setOutLen_dstAddr (r : Regs) (v : Word) : (r.setOutLen v).dstAddr = r.dstAddr := rfl
@[simp] theorem Regs.setOutLen_outLen (r : Regs) (v : Word) : (r.setOutLen v).outLen = v := rfl
@[simp] theorem Regs.setOutLen_keyAddr (r : Regs) (v : Word) : (r.setOutLen v).keyAddr = r.keyAddr := rfl
@[simp] theorem Regs.setOutLen_keyLen (r : Regs) (v : Word) : (r.setOutLen v).keyLen = r.keyLen := rfl
@[simp] theorem Regs.setOutLen_ivAddr (r : Regs) (v : Word) : (r.setOutLen v).ivAddr = r.ivAddr := rfl
@[simp] theorem Regs.setOutLen_saltAddr (r : Regs) (v : Word) : (r.setOutLen v).saltAddr = r.saltAddr := rfl
@[simp] theorem Regs.setOutLen_saltLen (r : Regs) (v : Word) : (r.setOutLen v).saltLen = r.saltLen := rfl
@[simp] theorem Regs.setOutLen_iter (r : Regs) (v : Word) : (r.setOutLen v).iter = r.iter := rfl
@[simp] theorem Regs.setOutLen_dkLen (r : Regs) (v : Word) : (r.setOutLen v).dkLen = r.dkLen := rfl
@[simp] theorem Regs.setOutLen_desKeyHi (r : Regs) (v : Word) : (r.setOutLen v).desKeyHi = r.desKeyHi := rfl
@[simp] theorem Regs.setOutLen_desKeyLo (r : Regs) (v : Word) : (r.setOutLen v).desKeyLo = r.desKeyLo := rfl
@[simp] theorem Regs.setOutLen_desBlkHi (r : Regs) (v : Word) : (r.setOutLen v).desBlkHi = r.desBlkHi := rfl
@[simp] theorem Regs.setOutLen_desBlkLo (r : Regs) (v : Word) : (r.setOutLen v).desBlkLo = r.desBlkLo := rfl
@[simp] theorem Regs.setOutLen_aesKey (r : Regs) (v : Word) : (r.setOutLen v).aesKey = r.aesKey := rfl
@[simp] theorem Regs.setOutLen_aesState (r : Regs) (v : Word) : (r.setOutLen v).aesState = r.aesState := rfl
@[simp] theorem Regs.setOutLen_desSk (r : Regs) (v : Word) : (r.setOutLen v).desSk = r.desSk := rfl
@[simp] theorem Regs.setOutLen_aesRk (r : Regs) (v : Word) : (r.setOutLen v).aesRk = r.aesRk := rfl

@[simp] theorem Regs.setDesBlk_srcAddr (r : Regs) (hi lo : Word) : (r.setDesBlk hi lo).srcAddr = r.srcAddr := rfl
@[simp] theorem Regs.setDesBlk_srcLen (r : Regs) (hi lo : Word) : (r.setDesBlk hi lo).srcLen = r.srcLen := rfl
@[simp] theorem Regs.setDesBlk_dstAddr (r : Regs) (hi lo : Word) : (r.setDesBlk hi lo).dstAddr = r.dstAddr := rfl
@[simp] theorem Regs.setDesBlk_outLen (r : Regs) (hi lo : Word) : (r.setDesBlk hi lo).outLen = r.outLen := rfl
@[simp] theorem Regs.setDesBlk_keyAddr (r : Regs) (hi lo : Word) : (r.setDesBlk hi lo).keyAddr = r.keyAddr := rfl
@[simp] theorem Regs.setDesBlk_keyLen (r : Regs) (hi lo : Word) : (r.setDesBlk hi lo).keyLen = r.keyLen := rfl
@[simp] theorem Regs.setDesBlk_ivAddr (r : Regs) (hi lo : Word) : (r.setDesBlk hi lo).ivAddr = r.ivAddr := rfl
@[simp] theorem Regs.setDesBlk_saltAddr (r : Regs) (hi lo : Word) : (r.setDesBlk hi lo).saltAddr = r.saltAddr := rfl
@[simp] theorem Regs.setDesBlk_saltLen (r : Regs) (hi lo : Word) : (r.setDesBlk hi lo).saltLen = r.saltLen := rfl
@[simp] theorem Regs.setDesBlk_iter (r : Regs) (hi lo : Word) : (r.setDesBlk hi lo).iter = r.iter := rfl
@[simp] theorem Regs.setDesBlk_dkLen (r : Regs) (hi lo : Word) : (r.setDesBlk hi lo).dkLen = r.dkLen := rfl
@[simp] theorem Regs.setDesBlk_desKeyHi (r : Regs) (hi lo : Word) : (r.setDesBlk hi lo).desKeyHi = r.desKeyHi := rfl
@[simp] theorem Regs.setDesBlk_desKeyLo (r : Regs) (hi lo : Word) : (r.setDesBlk hi lo).desKeyLo = r.desKeyLo := rfl
@[simp] theorem Regs.setDesBlk_desBlkHi (r : Regs) (hi lo : Word) : (r.setDesBlk hi lo).desBlkHi = hi := rfl
@[simp] theorem Regs.setDesBlk_desBlkLo (r : Regs) (hi lo : Word) : (r.setDesBlk hi lo).desBlkLo = lo := rfl
@[simp] theorem Regs.setDesBlk_aesKey (r : Regs) (hi lo : Word) : (r.setDesBlk hi lo).aesKey = r.aesKey := rfl
@[simp] theorem Regs.setDesBlk_aesState (r : Regs) (hi lo : Word) : (r.setDesBlk hi lo).aesState = r.aesState := rfl
@[simp] theorem Regs.setDesBlk_desSk (r : Regs) (hi lo : Word) : (r.setDesBlk hi lo).desSk = r.desSk := rfl
@[simp] theorem Regs.setDesBlk_aesRk (r : Regs) (hi lo : Word) : (r.setDesBlk hi lo).aesRk = r.aesRk := rfl

@[simp] theorem Regs.setDesSk_srcAddr (r : Regs) (sk : Vector (BitVec 48) 16) : (r.setDesSk sk).srcAddr = r.srcAddr := rfl
@[simp] theorem Regs.setDesSk_srcLen (r : Regs) (sk : Vector (BitVec 48) 16) : (r.setDesSk sk).srcLen = r.srcLen := rfl
@[simp] theorem Regs.setDesSk_dstAddr (r : Regs) (sk : Vector (BitVec 48) 16) : (r.setDesSk sk).dstAddr = r.dstAddr := rfl
@[simp] theorem Regs.setDesSk_outLen (r : Regs) (sk : Vector (BitVec 48) 16) : (r.setDesSk sk).outLen = r.outLen := rfl
@[simp] theorem Regs.setDesSk_keyAddr (r : Regs) (sk : Vector (BitVec 48) 16) : (r.setDesSk sk).keyAddr = r.keyAddr := rfl
@[simp] theorem Regs.setDesSk_keyLen (r : Regs) (sk : Vector (BitVec 48) 16) : (r.setDesSk sk).keyLen = r.keyLen := rfl
@[simp] theorem Regs.setDesSk_ivAddr (r : Regs) (sk : Vector (BitVec 48) 16) : (r.setDesSk sk).ivAddr = r.ivAddr := rfl
@[simp] theorem Regs.setDesSk_saltAddr (r : Regs) (sk : Vector (BitVec 48) 16) : (r.setDesSk sk).saltAddr = r.saltAddr := rfl
@[simp] theorem Regs.setDesSk_saltLen (r : Regs) (sk : Vector (BitVec 48) 16) : (r.setDesSk sk).saltLen = r.saltLen := rfl
@[simp] theorem Regs.setDesSk_iter (r : Regs) (sk : Vector (BitVec 48) 16) : (r.setDesSk sk).iter = r.iter := rfl
@[simp] theorem Regs.setDesSk_dkLen (r : Regs) (sk : Vector (BitVec 48) 16) : (r.setDesSk sk).dkLen = r.dkLen := rfl
@[simp] theorem Regs.setDesSk_desKeyHi (r : Regs) (sk : Vector (BitVec 48) 16) : (r.setDesSk sk).desKeyHi = r.desKeyHi := rfl
@[simp] theorem Regs.setDesSk_desKeyLo (r : Regs) (sk : Vector (BitVec 48) 16) : (r.setDesSk sk).desKeyLo = r.desKeyLo := rfl
@[simp] theorem Regs.setDesSk_desBlkHi (r : Regs) (sk : Vector (BitVec 48) 16) : (r.setDesSk sk).desBlkHi = r.desBlkHi := rfl
@[simp] theorem Regs.setDesSk_desBlkLo (r : Regs) (sk : Vector (BitVec 48) 16) : (r.setDesSk sk).desBlkLo = r.desBlkLo := rfl
@[simp] theorem Regs.setDesSk_aesKey (r : Regs) (sk : Vector (BitVec 48) 16) : (r.setDesSk sk).aesKey = r.aesKey := rfl
@[simp] theorem Regs.setDesSk_aesState (r : Regs) (sk : Vector (BitVec 48) 16) : (r.setDesSk sk).aesState = r.aesState := rfl
@[simp] theorem Regs.setDesSk_desSk (r : Regs) (sk : Vector (BitVec 48) 16) : (r.setDesSk sk).desSk = sk := rfl
@[simp] theorem Regs.setDesSk_aesRk (r : Regs) (sk : Vector (BitVec 48) 16) : (r.setDesSk sk).aesRk = r.aesRk := rfl

@[simp] theorem Regs.setAesState_srcAddr (r : Regs) (q : Quad) : (r.setAesState q).srcAddr = r.srcAddr := rfl
@[simp] theorem Regs.setAesState_srcLen (r : Regs) (q : Quad) : (r.setAesState q).srcLen = r.srcLen := rfl
@[simp] theorem Regs.setAesState_dstAddr (r : Regs) (q : Quad) : (r.setAesState q).dstAddr = r.dstAddr := rfl
@[simp] theorem Regs.setAesState_outLen (r : Regs) (q : Quad) : (r.setAesState q).outLen = r.outLen := rfl
@[simp] theorem Regs.setAesState_keyAddr (r : Regs) (q : Quad) : (r.setAesState q).keyAddr = r.keyAddr := rfl
@[simp] theorem Regs.setAesState_keyLen (r : Regs) (q : Quad) : (r.setAesState q).keyLen = r.keyLen := rfl
@[simp] theorem Regs.setAesState_ivAddr (r : Regs) (q : Quad) : (r.setAesState q).ivAddr = r.ivAddr := rfl
@[simp] theorem Regs.setAesState_saltAddr (r : Regs) (q : Quad) : (r.setAesState q).saltAddr = r.saltAddr := rfl
@[simp] theorem Regs.setAesState_saltLen (r : Regs) (q : Quad) : (r.setAesState q).saltLen = r.saltLen := rfl
@[simp] theorem Regs.setAesState_iter (r : Regs) (q : Quad) : (r.setAesState q).iter = r.iter := rfl
@[simp] theorem Regs.setAesState_dkLen (r : Regs) (q : Quad) : (r.setAesState q).dkLen = r.dkLen := rfl
@[simp] theorem Regs.setAesState_desKeyHi (r : Regs) (q : Quad) : (r.setAesState q).desKeyHi = r.desKeyHi := rfl
@[simp] theorem Regs.setAesState_desKeyLo (r : Regs) (q : Quad) : (r.setAesState q).desKeyLo = r.desKeyLo := rfl
@[simp] theorem Regs.setAesState_desBlkHi (r : Regs) (q : Quad) : (r.setAesState q).desBlkHi = r.desBlkHi := rfl
@[simp] theorem Regs.setAesState_desBlkLo (r : Regs) (q : Quad) : (r.setAesState q).desBlkLo = r.desBlkLo := rfl
@[simp] theorem Regs.setAesState_aesKey (r : Regs) (q : Quad) : (r.setAesState q).aesKey = r.aesKey := rfl
@[simp] theorem Regs.setAesState_aesState (r : Regs) (q : Quad) : (r.setAesState q).aesState = q := rfl
@[simp] theorem Regs.setAesState_desSk (r : Regs) (q : Quad) : (r.setAesState q).desSk = r.desSk := rfl
@[simp] theorem Regs.setAesState_aesRk (r : Regs) (q : Quad) : (r.setAesState q).aesRk = r.aesRk := rfl

@[simp] theorem Regs.setAesRk_srcAddr (r : Regs) (w : Vector Word 44) : (r.setAesRk w).srcAddr = r.srcAddr := rfl
@[simp] theorem Regs.setAesRk_srcLen (r : Regs) (w : Vector Word 44) : (r.setAesRk w).srcLen = r.srcLen := rfl
@[simp] theorem Regs.setAesRk_dstAddr (r : Regs) (w : Vector Word 44) : (r.setAesRk w).dstAddr = r.dstAddr := rfl
@[simp] theorem Regs.setAesRk_outLen (r : Regs) (w : Vector Word 44) : (r.setAesRk w).outLen = r.outLen := rfl
@[simp] theorem Regs.setAesRk_keyAddr (r : Regs) (w : Vector Word 44) : (r.setAesRk w).keyAddr = r.keyAddr := rfl
@[simp] theorem Regs.setAesRk_keyLen (r : Regs) (w : Vector Word 44) : (r.setAesRk w).keyLen = r.keyLen := rfl
@[simp] theorem Regs.setAesRk_ivAddr (r : Regs) (w : Vector Word 44) : (r.setAesRk w).ivAddr = r.ivAddr := rfl
@[simp] theorem Regs.setAesRk_saltAddr (r : Regs) (w : Vector Word 44) : (r.setAesRk w).saltAddr = r.saltAddr := rfl
@[simp] theorem Regs.setAesRk_saltLen (r : Regs) (w : Vector Word 44) : (r.setAesRk w).saltLen = r.saltLen := rfl
@[simp] theorem Regs.setAesRk_iter (r : Regs) (w : Vector Word 44) : (r.setAesRk w).iter = r.iter := rfl
@[simp] theorem Regs.setAesRk_dkLen (r : Regs) (w : Vector Word 44) : (r.setAesRk w).dkLen = r.dkLen := rfl
@[simp] theorem Regs.setAesRk_desKeyHi (r : Regs) (w : Vector Word 44) : (r.setAesRk w).desKeyHi = r.desKeyHi := rfl
@[simp] theorem Regs.setAesRk_desKeyLo (r : Regs) (w : Vector Word 44) : (r.setAesRk w).desKeyLo = r.desKeyLo := rfl
@[simp] theorem Regs.setAesRk_desBlkHi (r : Regs) (w : Vector Word 44) : (r.setAesRk w).desBlkHi = r.desBlkHi := rfl
@[simp] theorem Regs.setAesRk_desBlkLo (r : Regs) (w : Vector Word 44) : (r.setAesRk w).desBlkLo = r.desBlkLo := rfl
@[simp] theorem Regs.setAesRk_aesKey (r : Regs) (w : Vector Word 44) : (r.setAesRk w).aesKey = r.aesKey := rfl
@[simp] theorem Regs.setAesRk_aesState (r : Regs) (w : Vector Word 44) : (r.setAesRk w).aesState = r.aesState := rfl
@[simp] theorem Regs.setAesRk_desSk (r : Regs) (w : Vector Word 44) : (r.setAesRk w).desSk = r.desSk := rfl
@[simp] theorem Regs.setAesRk_aesRk (r : Regs) (w : Vector Word 44) : (r.setAesRk w).aesRk = w := rfl

@[simp] theorem Regs.cleared_srcAddr (r : Regs) : (r.cleared).srcAddr = r.srcAddr := rfl
@[simp] theorem Regs.cleared_srcLen (r : Regs) : (r.cleared).srcLen = r.srcLen := rfl
@[simp] theorem Regs.cleared_dstAddr (r : Regs) : (r.cleared).dstAddr = r.dstAddr := rfl
@[simp] theorem Regs.cleared_outLen (r : Regs) : (r.cleared).outLen = r.outLen := rfl
@[simp] theorem Regs.cleared_keyAddr (r : Regs) : (r.cleared).keyAddr = r.keyAddr := rfl
@[simp] theorem Regs.cleared_keyLen (r : Regs) : (r.cleared).keyLen = r.keyLen := rfl
@[simp] theorem Regs.cleared_ivAddr (r : Regs) : (r.cleared).ivAddr = r.ivAddr := rfl
@[simp] theorem Regs.cleared_saltAddr (r : Regs) : (r.cleared).saltAddr = r.saltAddr := rfl
@[simp] theorem Regs.cleared_saltLen (r : Regs) : (r.cleared).saltLen = r.saltLen := rfl
@[simp] theorem Regs.cleared_iter (r : Regs) : (r.cleared).iter = r.iter := rfl
@[simp] theorem Regs.cleared_dkLen (r : Regs) : (r.cleared).dkLen = r.dkLen := rfl
@[simp] theorem Regs.cleared_desKeyHi (r : Regs) : (r.cleared).desKeyHi = 0 := rfl
@[simp] theorem Regs.cleared_desKeyLo (r : Regs) : (r.cleared).desKeyLo = 0 := rfl
@[simp] theorem Regs.cleared_desBlkHi (r : Regs) : (r.cleared).desBlkHi = 0 := rfl
@[simp] theorem Regs.cleared_desBlkLo (r : Regs) : (r.cleared).desBlkLo = 0 := rfl
@[simp] theorem Regs.cleared_aesKey (r : Regs) : (r.cleared).aesKey = ⟨0, 0, 0, 0⟩ := rfl
@[simp] theorem Regs.cleared_aesState (r : Regs) : (r.cleared).aesState = ⟨0, 0, 0, 0⟩ := rfl
@[simp] theorem Regs.cleared_desSk (r : Regs) : (r.cleared).desSk = Vector.replicate 16 0 := rfl
@[simp] theorem Regs.cleared_aesRk (r : Regs) : (r.cleared).aesRk = Vector.replicate 44 0 := rfl

/-! ## STATUS -/

@[simp] theorem acceptedStatus_busy : acceptedStatus.busy = true := rfl
@[simp] theorem acceptedStatus_done : acceptedStatus.done = false := rfl
@[simp] theorem acceptedStatus_err : acceptedStatus.err = false := rfl
@[simp] theorem acceptedStatus_ecode : acceptedStatus.ecode = .none := rfl
@[simp] theorem completedStatus_busy (e : ECode) : (completedStatus e).busy = false := rfl
@[simp] theorem completedStatus_done (e : ECode) : (completedStatus e).done = true := rfl
@[simp] theorem completedStatus_err (e : ECode) : (completedStatus e).err = decide (e ≠ .none) := rfl
@[simp] theorem completedStatus_ecode (e : ECode) : (completedStatus e).ecode = e := rfl

/-- Both of STATUS's updates give a legal combination of its flags (10_state.md R25). -/
theorem completedStatus_legal (e : ECode) : statusLegal (completedStatus e) = true := by cases e <;> rfl

theorem acceptedStatus_legal : statusLegal acceptedStatus = true := rfl

end Sys2Proof.Machine
end

