-- ==== Sys2Proof/Laws/Memory.lean ====
section
/-! SUPPORT. DMEM: what a read gives after a write, and that every memory operation keeps the canonical form (20_memory.md R60, R62, R73). -/

namespace Sys2Proof.Machine

/-! ## One byte -/

@[simp] theorem memFind_nil (a : Nat) : memFind [] a = none := rfl

theorem memFind_insert_same (m : Memory) (a : Nat) (b : Byte) : memFind (memInsert m a b) a = some b := by
  induction m with
  | nil => simp [memInsert, memFind]
  | cons c rest ih =>
    obtain ⟨k, v⟩ := c
    simp only [memInsert]
    split
    · simp [memFind]
    · split
      · simp [memFind]
      · simp [memFind, ih]; omega

theorem memFind_insert_other (m : Memory) {a x : Nat} (b : Byte) (h : x ≠ a) : memFind (memInsert m a b) x = memFind m x := by
  induction m with
  | nil => simp [memInsert, memFind]; omega
  | cons c rest ih =>
    obtain ⟨k, v⟩ := c
    simp only [memInsert]
    split
    · simp [memFind]; omega
    · split
      · subst_vars; simp [memFind, Ne.symm h]
      · simp [memFind, ih]

/-! ## A sequence of bytes -/

@[simp] theorem memInsertAll_nil (m : Memory) (a : Nat) : memInsertAll m a [] = m := rfl

/-- A read outside the written range gives what it gave before. -/
theorem memFind_insertAll_outside (bs : Bytes) (m : Memory) (a x : Nat) (h : x < a ∨ a + bs.length ≤ x) :
    memFind (memInsertAll m a bs) x = memFind m x := by
  induction bs generalizing m a with
  | nil => rfl
  | cons b bs ih =>
    simp only [List.length_cons] at h
    rw [memInsertAll, ih _ _ (by omega), memFind_insert_other _ _ (by omega)]

/-- A read inside the written range gives the byte written there. -/
theorem memFind_insertAll_inside (bs : Bytes) (m : Memory) (a k : Nat) (h : k < bs.length) :
    memFind (memInsertAll m a bs) (a + k) = some bs[k] := by
  induction bs generalizing m a k with
  | nil => simp at h
  | cons b bs ih =>
    rw [memInsertAll]
    cases k with
    | zero => rw [memFind_insertAll_outside _ _ _ _ (by omega)]; simpa using memFind_insert_same m a b
    | succ k =>
      have := ih (memInsert m a b) (a + 1) k (by simpa using h)
      rw [show a + (k + 1) = a + 1 + k by omega, this]; simp

/-! ## The machine's byte read -/

theorem readByte_memWrite_outside (s : State) (a x : Nat) (bs : Bytes) (h : x < a ∨ a + bs.length ≤ x) :
    (s.memWrite a bs).readByte x = s.readByte x := by
  simp [State.readByte, memFind_insertAll_outside _ _ _ _ h]

theorem readByte_memWrite_inside (s : State) (a k : Nat) (bs : Bytes) (h : k < bs.length) :
    (s.memWrite a bs).readByte (a + k) = bs[k] := by
  simp [State.readByte, memFind_insertAll_inside _ _ _ _ h]

/-- A byte's value depends on DMEM and on which reset came last, on nothing else. -/
theorem readByte_congr {s t : State} (hm : t.dmem = s.dmem) (he : t.epoch = s.epoch) (x : Nat) : t.readByte x = s.readByte x := by
  simp [State.readByte, hm, he]

@[simp] theorem readByte_setRegs (s : State) (r : Regs) (x : Nat) : (s.setRegs r).readByte x = s.readByte x := rfl
@[simp] theorem readByte_complete (s : State) (e : ECode) (x : Nat) : (s.complete e).readByte x = s.readByte x := rfl
@[simp] theorem readByte_completeOk (s : State) (x : Nat) : s.completeOk.readByte x = s.readByte x := rfl
@[simp] theorem readByte_raise (s : State) (e : ECode) (x : Nat) : (s.raise e).readByte x = s.readByte x := rfl

@[simp] theorem memRead_length (s : State) (a n : Nat) : (s.memRead a n).length = n := by simp [State.memRead]

@[simp] theorem memRead_getElem (s : State) (a n k : Nat) (h : k < (s.memRead a n).length) :
    (s.memRead a n)[k] = s.readByte (a + k) := by simp [State.memRead]

/-- Reading back exactly the bytes written. -/
theorem memRead_memWrite (s : State) (a : Nat) (bs : Bytes) : (s.memWrite a bs).memRead a bs.length = bs := by
  apply List.ext_getElem (by simp)
  intro k h1 h2
  rw [memRead_getElem, readByte_memWrite_inside _ _ _ _ h2]

/-! ## The canonical form -/

/-- Every key a write leaves was there before or is the address written. -/
theorem memInsert_keys {m : Memory} {a : Nat} {b : Byte} {c : Host.Cell} (h : c ∈ memInsert m a b) : c.1 = a ∨ c ∈ m := by
  induction m with
  | nil => simp [memInsert] at h; simp [h]
  | cons d rest ih =>
    obtain ⟨k, v⟩ := d
    simp only [memInsert] at h
    split at h
    · rcases List.mem_cons.1 h with rfl | h <;> simp_all
    · split at h
      · rcases List.mem_cons.1 h with rfl | h <;> simp_all
      · rcases List.mem_cons.1 h with rfl | h
        · simp
        · rcases ih h with h | h <;> simp [h]

theorem memInsert_rising {m : Memory} (h : m.Pairwise (fun c d => c.1 < d.1)) (a : Nat) (b : Byte) :
    (memInsert m a b).Pairwise (fun c d => c.1 < d.1) := by
  induction m with
  | nil => simp [memInsert]
  | cons d rest ih =>
    obtain ⟨k, v⟩ := d
    obtain ⟨hk, hr⟩ := List.pairwise_cons.1 h
    simp only [memInsert]
    split
    · next hlt =>
      refine List.pairwise_cons.2 ⟨fun c hc => ?_, h⟩
      rcases List.mem_cons.1 hc with rfl | hc
      · exact hlt
      · exact Nat.lt_trans hlt (hk c hc)
    · split
      · next heq => subst heq; exact List.pairwise_cons.2 ⟨hk, hr⟩
      · refine List.pairwise_cons.2 ⟨fun c hc => ?_, ih hr⟩
        rcases memInsert_keys hc with hc | hc
        · simp only [hc]; omega
        · exact hk c hc

/-- Writing one byte inside DMEM keeps the canonical form. -/
theorem memInsert_wf {size : Nat} {m : Memory} (h : Memory.wf size m) {a : Nat} (ha : a < size) (b : Byte) :
    Memory.wf size (memInsert m a b) := by
  refine ⟨memInsert_rising h.1 a b, fun c hc => ?_⟩
  rcases memInsert_keys hc with hc | hc
  · omega
  · exact h.2 c hc

/-- Writing bytes inside DMEM keeps the canonical form. -/
theorem memInsertAll_wf {size : Nat} (bs : Bytes) {m : Memory} (h : Memory.wf size m) {a : Nat} (ha : a + bs.length ≤ size) :
    Memory.wf size (memInsertAll m a bs) := by
  induction bs generalizing m a with
  | nil => exact h
  | cons b bs ih =>
    simp only [List.length_cons] at ha
    exact ih (memInsert_wf h (by omega) b) (by omega)

/-- Nothing written is in canonical form, so the memory after every reset is. -/
theorem reset_mem_wf (n : Word) : Memory.wf (State.resetWith n).dmemSize (State.resetWith n).dmem := by
  simp [Memory.wf, State.resetWith]

theorem coreReset_mem_wf (s : State) : Memory.wf s.coreReset.dmemSize s.coreReset.dmem := by simp [Memory.wf]

end Sys2Proof.Machine
end

