-- ==== Sys2Proof/Laws/Exec.lean ====
section
/-! SUPPORT. What the shared operations can do, said once: the first error of a list of checks, a buffer command, the commit of an outcome,
the engine's step and the machine's step; and that no meaning stops (60_exceptions.md R251, R253, R254). -/

namespace Sys2Proof.Machine

/-! ## Checks and commits -/

@[simp] theorem firstError_nil : firstError [] = none := rfl

@[simp] theorem firstError_cons (b : Bool) (e : ECode) (rest : List (Bool × ECode)) :
    firstError ((b, e) :: rest) = if b then some e else firstError rest := rfl

/-- No check fails exactly when every condition is false. -/
theorem firstError_eq_none {cs : List (Bool × ECode)} : firstError cs = none ↔ ∀ c ∈ cs, c.1 = false := by
  induction cs with
  | nil => simp
  | cons c rest ih => obtain ⟨b, e⟩ := c; cases b <;> simp [ih]

/-- The reported error is one of the listed ones. -/
theorem firstError_mem {cs : List (Bool × ECode)} {e : ECode} (h : firstError cs = some e) : (true, e) ∈ cs := by
  induction cs with
  | nil => simp at h
  | cons c rest ih =>
    obtain ⟨b, e'⟩ := c
    cases b <;> simp at h
    · exact List.mem_cons_of_mem _ (ih h)
    · simp [h]

/-- The range checks pass exactly when every range is in bounds and the destination is apart from every source. -/
theorem rangeErrors_none {size : Nat} {dst : Nat × Nat} {srcs : List (Nat × Nat)} :
    firstError (rangeErrors size dst srcs) = none ↔
      ((∀ r ∈ srcs, inBounds size r = true) ∧ inBounds size dst = true) ∧ ∀ r ∈ srcs, overlap dst r = false := by
  simp only [rangeErrors, firstError_cons, firstError_nil, Bool.not_eq_true', Bool.and_eq_false_iff]
  cases h1 : srcs.all (inBounds size) <;> cases h2 : inBounds size dst <;> cases h3 : srcs.any (overlap dst) <;> simp_all

@[simp] theorem commit_ok (s t : State) : s.commit (.ok t) = t.completeOk := rfl

@[simp] theorem commit_error (s : State) (e : ECode) : s.commit (.error e) = s.raise e := rfl

/-- A buffer command fails with an error, or all its checks passed and its output is written. -/
theorem bufferCommand_cases (s : State) (checks : List (Bool × ECode)) (dst : Nat) (out : Except ECode Bytes) :
    (∃ e, s.bufferCommand checks dst out = .error e ∧ (firstError checks = some e ∨ firstError checks = none ∧ out = .error e)) ∨
    (∃ bytes, firstError checks = none ∧ out = .ok bytes ∧ s.bufferCommand checks dst out =
      .ok ((s.memWrite dst bytes).setRegs (s.regs.setOutLen (BitVec.ofNat 32 bytes.length)))) := by
  unfold State.bufferCommand
  cases firstError checks with
  | some e => exact .inl ⟨e, rfl, .inl rfl⟩
  | none =>
    cases out with
    | error e => exact .inl ⟨e, rfl, .inr ⟨rfl, rfl⟩⟩
    | ok bytes => exact .inr ⟨bytes, rfl, rfl, rfl⟩

/-! ## The steps -/

/-- Every meaning answers a next state: no instruction stops. -/
theorem exec_next (i : Instr) (s : State) : ∃ t, exec i s = .next t := by
  cases i <;> simp [exec, execNop, execDesKs, execDesRound, execDesBlock, execDesEcbDec, execAesKeyexp, execAesSubbytes,
    execAesShiftrows, execAesMixcolumns, execAesAddrk, execAesBlockEnc, execAesCbcEnc, execPbkdf2, execClear]
  split <;> simp

/-- The engine's step: the decoded command's meaning, or the report of ILLEGAL_CMD (60_exceptions.md R251). -/
theorem engineStep_cases (w : Word) (s : State) :
    (∃ i, decode w = .ok i ∧ engineStep w s = exec i s) ∨
    (∃ r, decode w = .error r ∧ engineStep w s = .next (s.raise .illegalCmd)) := by
  unfold engineStep
  cases h : decode w with
  | ok i => exact .inl ⟨i, rfl, rfl⟩
  | error r => exact .inr ⟨r, rfl, rfl⟩

/-- Everything one step can be (10_state.md R22). -/
theorem step_cases (s : State) :
    (s.phase = .idle ∧ step s = .next s.hostStep) ∨
    (∃ w, s.phase = .pending w ∧ s.delay = 0 ∧ step s = engineStep w s) ∨
    (∃ w, s.phase = .pending w ∧ s.delay ≠ 0 ∧ step s = .next s.hostTurn) := by
  unfold step
  cases hp : s.phase with
  | idle => exact .inl ⟨rfl, rfl⟩
  | pending w =>
    by_cases hd : s.delay = 0
    · exact .inr (.inl ⟨w, rfl, hd, by simp [hd]⟩)
    · exact .inr (.inr ⟨w, rfl, hd, by simp [hd]⟩)

/-- Everything one turn of the host can be (20_memory.md R76). -/
theorem hostStep_cases (s : State) :
    (s.host = [] ∧ s.hostStep = s) ∨
    (∃ op rest, s.host = op :: rest ∧ s.hostStep = ({ s with host := rest } : State).hostAccess op) := by
  unfold State.hostStep
  cases h : s.host with
  | nil => exact .inl ⟨rfl, rfl⟩
  | cons op rest => exact .inr ⟨op, rest, rfl, rfl⟩

end Sys2Proof.Machine
end

