-- ==== Sys2Proof/Laws/PerInstr.lean ====
section
/-! SUPPORT. Facts stated of every command and proved constructor by constructor. -/

namespace Sys2Proof.Laws

/-- The encoded word of a command has its reserved fields at 0, and its DIR bit set only for DES_BLOCK (30_encoding.md R90). -/
abbrev EncodedFields.Statement (i : Instr) : Prop :=
  reservedZero (encode i) = true ∧ (dirField (encode i) = true → opField (encode i) = 0x03)

theorem EncodedFields.nop : EncodedFields.Statement .nop := by decide
theorem EncodedFields.desKs : EncodedFields.Statement .desKs := by decide
theorem EncodedFields.desRound (idx : BitVec 4) : EncodedFields.Statement (.desRound idx) := by
  unfold EncodedFields.Statement; revert idx; decide
theorem EncodedFields.desBlock (decrypt : Bool) : EncodedFields.Statement (.desBlock decrypt) := by cases decrypt <;> decide
theorem EncodedFields.desEcbDec : EncodedFields.Statement .desEcbDec := by decide
theorem EncodedFields.aesKeyexp : EncodedFields.Statement .aesKeyexp := by decide
theorem EncodedFields.aesSubbytes : EncodedFields.Statement .aesSubbytes := by decide
theorem EncodedFields.aesShiftrows : EncodedFields.Statement .aesShiftrows := by decide
theorem EncodedFields.aesMixcolumns : EncodedFields.Statement .aesMixcolumns := by decide
theorem EncodedFields.aesAddrk (idx : BitVec 4) : EncodedFields.Statement (.aesAddrk idx) := by
  unfold EncodedFields.Statement; revert idx; decide
theorem EncodedFields.aesBlockEnc : EncodedFields.Statement .aesBlockEnc := by decide
theorem EncodedFields.aesCbcEnc : EncodedFields.Statement .aesCbcEnc := by decide
theorem EncodedFields.pbkdf2 : EncodedFields.Statement .pbkdf2 := by decide
theorem EncodedFields.clear : EncodedFields.Statement .clear := by decide

end Sys2Proof.Laws
end

