-- ==== Sys2Proof/Tests/Slice0.lean ====
section
/-! SUPPORT. The model's own tests: the well-formedness smoke test, every constructor's decoding from a word written out from 30_encoding.md R96,
small vectors of 95_test_vectors.md, and a witness for the hypotheses of every statement that has some. -/

namespace Sys2Proof.Machine

/-! ## Helpers -/

/-- A machine with 64 bytes of DMEM right after reset. -/
def tst : State := State.resetWith 64

/-- The registers of a machine changed. -/
def tstRegs (f : Regs → Regs) : State := { tst with regs := f tst.regs }

/-- A command pending whose engine step comes next. -/
def tstPending (w : Word) : State := { tst with phase := .pending w, status := acceptedStatus }

/-- A command pending with two host steps left, and one host access to make. -/
def tstBusy (op : HostOp) : State := { tstPending 0x00000001 with delay := 2, host := [op] }

/-- An idle machine with one host access to make. -/
def tstHost (op : HostOp) : State := { tst with host := [op] }

/-- What a test reads off an outcome. -/
def seen {α : Type} (o : Host.Outcome State Fault Refusal) (f : State → α) : Option α :=
  match o with
  | .next t => some (f t)
  | .fault _ => none
  | .refused _ => none

/-- Cells from an address on. -/
def cellsAt (a : Nat) : Bytes → Memory
  | [] => []
  | b :: bs => (a, b) :: cellsAt (a + 1) bs

/-! ## Well-formedness and decoding (30_encoding.md R94 to R97) -/

theorem test_addrk_ten_well_formed : (Instr.aesAddrk 10).wellFormed = true := by decide
theorem test_addrk_eleven_ill_formed : (Instr.aesAddrk 11).wellFormed = false := by decide

theorem test_decode_nop : decode 0b00000000000000000000000000000000 = .ok .nop := by rfl
theorem test_decode_des_ks : decode 0b00000000000000000000000000000001 = .ok .desKs := by rfl
theorem test_decode_des_round : decode 0b00000000000000001010000000000010 = .ok (.desRound 10) := by rfl
theorem test_decode_des_block : decode 0b00000000000000000000000100000011 = .ok (.desBlock true) := by rfl
theorem test_decode_des_ecb_dec : decode 0b00000000000000000000000000000100 = .ok .desEcbDec := by rfl
theorem test_decode_aes_keyexp : decode 0b00000000000000000000000000010000 = .ok .aesKeyexp := by rfl
theorem test_decode_aes_subbytes : decode 0b00000000000000000000000000010001 = .ok .aesSubbytes := by rfl
theorem test_decode_aes_shiftrows : decode 0b00000000000000000000000000010010 = .ok .aesShiftrows := by rfl
theorem test_decode_aes_mixcolumns : decode 0b00000000000000000000000000010011 = .ok .aesMixcolumns := by rfl
theorem test_decode_aes_addrk : decode 0b00000000000000001010000000010100 = .ok (.aesAddrk 10) := by rfl
theorem test_decode_aes_block_enc : decode 0b00000000000000000000000000010101 = .ok .aesBlockEnc := by rfl
theorem test_decode_aes_cbc_enc : decode 0b00000000000000000000000000010110 = .ok .aesCbcEnc := by rfl
theorem test_decode_pbkdf2 : decode 0b00000000000000000000000000100000 = .ok .pbkdf2 := by rfl
theorem test_decode_clear : decode 0b00000000000000000000000000110000 = .ok .clear := by rfl

theorem test_illegal_reasons :
    decode 0x00000005 = .error .unknownOp ∧ decode 0x00000200 = .error .reservedField ∧ decode 0x00000104 = .error .dirNotAllowed
    ∧ decode 0x00001103 = .error .idxNotAllowed ∧ decode 0x0000B014 = .error .idxOutOfRange := ⟨rfl, rfl, rfl, rfl, rfl⟩

theorem test_table_word : decodeTableWord 32 0x00000103 = some (.desBlock true) := by rfl

/-! ## The first command after reset (70_reset_and_hazards.md R283, 95_test_vectors.md §2.11) -/

theorem test_first_command_runs : seen (step (State.reset.withFetchWord 32 0x20)) (statusWord ·.status) = some 0x00000406 := by decide

/-! ## One step of each command (95_test_vectors.md) -/

theorem test_nop_clears_report :
    seen (exec .nop { tst with status := completedStatus .invalidLength }) (statusWord ·.status) = some 0x00000002 := by decide

theorem test_clear_keeps_src_addr :
    seen (exec .clear (tstRegs fun r => { r with srcAddr := 0x40, desKeyHi := 0x13345779 })) (fun t => (t.regs.srcAddr, t.regs.desKeyHi))
      = some (0x40, 0) := by decide

/-- §2.1, the key schedule of the source's key. -/
theorem test_des_ks : seen (exec .desKs (tstRegs fun r => { r with desKeyHi := 0x13345779, desKeyLo := 0x9BBCDFF1 }))
    (fun t => (t.readReg (.desSkHi 0), t.readReg (.desSkLo 0), t.readReg (.desSkHi 15), t.readReg (.desSkLo 15)))
      = some (0x00001B02, 0xEFFC7072, 0x0000CB3D, 0x8B0E17F5) := by decide +kernel

/-- §2.4, rows 2 and 5. -/
theorem test_des_round : seen (exec (.desRound 15) (tstRegs fun r =>
    { r with desBlkHi := 0x01234567, desBlkLo := 0x89ABCDEF, desSk := keySchedule 0x133457799BBCDFF1 })) (·.regs.desBlk)
      = some 0x89ABCDEF3DB2F7C9 := by decide +kernel

theorem test_des_round_zero_subkeys : seen (exec (.desRound 7) (tstRegs fun r =>
    { r with desBlkHi := 0x01234567, desBlkLo := 0x89ABCDEF })) (·.regs.desBlk) = some 0x89ABCDEF1200F0A1 := by decide +kernel

/-- §1.1, the source's known answer, both directions. -/
theorem test_des_block_encrypt : seen (exec (.desBlock false) (tstRegs fun r =>
    { r with desBlkHi := 0x01234567, desBlkLo := 0x89ABCDEF, desSk := keySchedule 0x133457799BBCDFF1 })) (·.regs.desBlk)
      = some 0x85E813540F0AB405 := by decide +kernel

theorem test_des_block_decrypt : seen (exec (.desBlock true) (tstRegs fun r =>
    { r with desBlkHi := 0x85E81354, desBlkLo := 0x0F0AB405, desSk := keySchedule 0x133457799BBCDFF1 })) (·.regs.desBlk)
      = some 0x0123456789ABCDEF := by decide +kernel

/-- §2.5 row 1: "cookie12345" at 0x10, "PUNJAB" with two bytes of padding encrypted at 0x00, output at 0x20. -/
def tstEcb : State :=
  { tst with
    regs := { tst.regs with srcLen := 8, keyAddr := 0x10, keyLen := 11, dstAddr := 0x20 }
    dmem := cellsAt 0x00 [0x7F, 0xDB, 0x59, 0x10, 0x9F, 0xE6, 0x95, 0x43]
      ++ cellsAt 0x10 [0x63, 0x6F, 0x6F, 0x6B, 0x69, 0x65, 0x31, 0x32, 0x33, 0x34, 0x35] ++ cellsAt 0x26 [0xAA, 0xBB] }

theorem test_des_ecb_dec : seen (exec .desEcbDec tstEcb) (fun t => (t.regs.outLen, t.memRead 0x20 8))
    = some (6, [0x50, 0x55, 0x4E, 0x4A, 0x41, 0x42, 0xAA, 0xBB]) := by decide +kernel

/-- §2.10: the key range [0x3C, 0x44) leaves DMEM. -/
theorem test_des_ecb_dec_bounds : seen (exec .desEcbDec { tstEcb with regs := { tstEcb.regs with keyAddr := 0x3C } })
    (fun t => (statusWord t.status, decide (t.dmem = tstEcb.dmem))) = some (0x00000506, true) := by decide +kernel

/-- §2.7, the key of FIPS 197 Appendix A.1. -/
theorem test_aes_keyexp : seen (exec .aesKeyexp (tstRegs fun r => { r with aesKey := ⟨0x2B7E1516, 0x28AED2A6, 0xABF71588, 0x09CF4F3C⟩ }))
    (fun t => (t.readReg (.aesRk 0), t.readReg (.aesRk 4), t.readReg (.aesRk 43))) = some (0x2B7E1516, 0xA0FAFE17, 0xB6630CA6) := by
  decide +kernel

/-- §3.5, round 1 of FIPS 197 C.1 step by step. -/
theorem test_aes_subbytes : seen (exec .aesSubbytes (tstRegs fun r => { r with aesState := ⟨0x00102030, 0x40506070, 0x8090A0B0, 0xC0D0E0F0⟩ }))
    (·.regs.aesState) = some ⟨0x63CAB704, 0x0953D051, 0xCD60E0E7, 0xBA70E18C⟩ := by decide +kernel

theorem test_aes_shiftrows : seen (exec .aesShiftrows (tstRegs fun r => { r with aesState := ⟨0x63CAB704, 0x0953D051, 0xCD60E0E7, 0xBA70E18C⟩ }))
    (·.regs.aesState) = some ⟨0x6353E08C, 0x0960E104, 0xCD70B751, 0xBACAD0E7⟩ := by decide +kernel

theorem test_aes_mixcolumns : seen (exec .aesMixcolumns (tstRegs fun r => { r with aesState := ⟨0x6353E08C, 0x0960E104, 0xCD70B751, 0xBACAD0E7⟩ }))
    (·.regs.aesState) = some ⟨0x5F726415, 0x57F5BC92, 0xF7BE3B29, 0x1DB9F91A⟩ := by decide +kernel

/-- §2.8, a column with the top bit set in each row. -/
theorem test_aes_mixcolumns_reduction : seen (exec .aesMixcolumns (tstRegs fun r => { r with aesState := ⟨0x80000000, 0x00800000, 0x00008000, 0x00000080⟩ }))
    (·.regs.aesState) = some ⟨0x1B80809B, 0x9B1B8080, 0x809B1B80, 0x80809B1B⟩ := by decide +kernel

theorem test_aes_addrk : seen (exec (.aesAddrk 1) (tstRegs fun r => { r with
      aesState := ⟨0x5F726415, 0x57F5BC92, 0xF7BE3B29, 0x1DB9F91A⟩,
      aesRk := keyExpansionWords ⟨0x00010203, 0x04050607, 0x08090A0B, 0x0C0D0E0F⟩ }))
    (·.regs.aesState) = some ⟨0x89D810E8, 0x855ACE68, 0x2D1843D8, 0xCB128FE4⟩ := by decide +kernel

/-- §2.8, FIPS 197 C.1. -/
theorem test_aes_block_enc : seen (exec .aesBlockEnc (tstRegs fun r => { r with
      aesState := ⟨0x00112233, 0x44556677, 0x8899AABB, 0xCCDDEEFF⟩,
      aesRk := keyExpansionWords ⟨0x00010203, 0x04050607, 0x08090A0B, 0x0C0D0E0F⟩ }))
    (·.regs.aesState) = some ⟨0x69C4E0D8, 0x6A7B0430, 0xD8CDB780, 0x70B4C55A⟩ := by decide +kernel

/-- §2.9, the empty plaintext: key at 0x00, IV at 0x10, output at 0x30 up to the end of DMEM. -/
def tstCbc : State :=
  { tst with
    regs := { tst.regs with srcAddr := 0x40, keyLen := 16, ivAddr := 0x10, dstAddr := 0x30 }
    dmem := cellsAt 0x00 [0x2B, 0x7E, 0x15, 0x16, 0x28, 0xAE, 0xD2, 0xA6, 0xAB, 0xF7, 0x15, 0x88, 0x09, 0xCF, 0x4F, 0x3C]
      ++ cellsAt 0x10 [0x00, 0x01, 0x02, 0x03, 0x04, 0x05, 0x06, 0x07, 0x08, 0x09, 0x0A, 0x0B, 0x0C, 0x0D, 0x0E, 0x0F] }

theorem test_aes_cbc_enc : seen (exec .aesCbcEnc tstCbc) (fun t => (t.regs.outLen, t.memRead 0x30 16))
    = some (16, [0xC8, 0x4A, 0xF0, 0xB6, 0x13, 0x43, 0x5D, 0x5D, 0x91, 0x82, 0x80, 0x1A, 0x9B, 0xD9, 0x32, 0x0B]) := by decide +kernel

theorem test_aes_cbc_enc_overlap : seen (exec .aesCbcEnc { tstCbc with regs := { tstCbc.regs with dstAddr := 0x18 } })
    (statusWord ·.status) = some 0x00000606 := by decide

/-- §2.6, RFC 6070 with c = 2: "password" at 0x00, "salt" at 0x10, output at 0x20. -/
def tstPbkdf2 : State :=
  { tst with
    regs := { tst.regs with srcLen := 8, saltAddr := 0x10, saltLen := 4, iter := 2, dkLen := 20, dstAddr := 0x20 }
    dmem := cellsAt 0x00 [0x70, 0x61, 0x73, 0x73, 0x77, 0x6F, 0x72, 0x64] ++ cellsAt 0x10 [0x73, 0x61, 0x6C, 0x74] }

theorem test_pbkdf2 : seen (exec .pbkdf2 tstPbkdf2) (fun t => (t.regs.outLen, t.memRead 0x20 20))
    = some (20, [0xEA, 0x6C, 0x01, 0x4D, 0xC7, 0x2D, 0x6F, 0x8C, 0xCD, 0x1E, 0xD9, 0x2A, 0xCE, 0x1D, 0x41, 0xF0, 0xD8, 0xDE, 0x89, 0x57]) := by
  decide +kernel

theorem test_pbkdf2_zero_iterations : seen (exec .pbkdf2 { tstPbkdf2 with regs := { tstPbkdf2.regs with iter := 0 } })
    (statusWord ·.status) = some 0x00000406 := by decide

/-! ## The functions behind the commands (95_test_vectors.md §2.3, §2.6) -/

theorem test_sha1_abc : sha1 [0x61, 0x62, 0x63] = [0xA9, 0x99, 0x3E, 0x36, 0x47, 0x06, 0x81, 0x6A, 0xBA, 0x3E, 0x25, 0x71, 0x78, 0x50,
    0xC2, 0x6C, 0x9C, 0xD0, 0xD8, 0x9D] := by decide +kernel

theorem test_initial_permutation : permute 64 (0x0123456789ABCDEF : BitVec 64) tableIP = 0xCC00CCFFF0AAF0AA := by decide +kernel

theorem test_feistel_round : feistelRound 0xF0AAF0AA 0x1B02EFFC7072 = 0x234AA9BB := by decide +kernel

theorem test_bytes_to_bits : bytesToBits 16 [0x01, 0x80] = 0b0000000110000000 ∧ bitsToBytes (0b0000000110000000 : BitVec 16) = [0x01, 0x80] := by
  decide

/-! ## The host (95_test_vectors.md §2.12, §3.6; 70_reset_and_hazards.md R290) -/

/-- P6's first order: a register write while the command is pending is a hazard and changes nothing. -/
theorem test_write_while_busy : seen (step (tstBusy (.regWrite 0x040 32 0x5))) (fun t => (t.hazard, t.regs.desKeyHi, t.phase))
    = some (true, 0, .pending 0x00000001) := by decide

theorem test_cmd_write_sets_busy : seen (step (tstHost (.regWrite 0x000 32 0x00000001))) (fun t => (statusWord t.status, t.phase))
    = some (0x00000001, .pending 0x00000001) := by decide

theorem test_misaligned_write : seen (step (tstHost (.regWrite 0x042 32 0x5))) (fun t => (t.hazard, t.regs)) = some (true, tst.regs) := by
  decide

theorem test_dmem_write_beyond : seen (step (tstHost (.memWrite 64 0x5))) (fun t => (t.hazard, t.dmem)) = some (true, []) := by decide

theorem test_register_map_ends :
    regAt 0x1AC = some (.aesRk 43) ∧ regAt 0x1B0 = none ∧ regAt 0x0FC = some (.desSkLo 15) ∧ regAt 0x100 = some (.aesRk 0)
    ∧ regAt 0x07C = none ∧ regAt 0x080 = some (.desSkHi 0) ∧ regAt 0x034 = some .memsize ∧ regAt 0x038 = none := by decide

/-- 30_encoding.md R100: the words of the pseudo-statements. -/
theorem test_expand_run : expandStmt (.run (.desRound 15)) = some [.regWrite 0x000 32 0x0000F002, .wait] := by decide

theorem test_expand_rejects : expandStmt (.cmd (.aesAddrk 11)) = none := by decide

/-- 30_encoding.md R99: a program of two statements, expanded in order. -/
theorem test_expand_program : expandProgram [.mset 0x10 [0xAA, 0xBB], .write .srcLen 2]
    = some [.memWrite 0x10 0xAA, .memWrite 0x11 0xBB, .regWrite 0x00C 32 2] := by decide

/-! ## Witnesses for the statements' hypotheses -/

theorem witness_DecodeInvertsEncode : (Instr.aesAddrk 10).wellFormed = true := by decide
theorem witness_EncodeInvertsDecode : decode 0x0000F002 = .ok (.desRound 15) := by rfl
theorem witness_LegalWords_illegal : ¬ LegalFields 0x0000B014 ∧ ¬ LegalFields 0x00000200 ∧ ¬ LegalFields 0x00010000 := by decide
theorem witness_LegalWords_legal : LegalFields 0x0000A014 ∧ LegalFields 0x00000103 := by decide
theorem witness_StepRuns_now : (tstPending 0x00000001).phase = .pending 0x00000001 ∧ (tstPending 0x00000001).delay = 0
    ∧ decode 0x00000001 = .ok .desKs := ⟨rfl, rfl, rfl⟩
theorem witness_StepRuns_later : (tstBusy .wait).phase = .pending 0x00000001 ∧ (tstBusy .wait).delay ≠ 0 := by decide
theorem witness_StepRuns_fetch : decodeTableWord 32 0x0000A014 = some (.aesAddrk 10) := by rfl
theorem witness_IllegalWord : (tstPending 0x00000005).phase = .pending 0x00000005 ∧ (tstPending 0x00000005).delay = 0
    ∧ decode 0x00000005 = .error .unknownOp := ⟨rfl, rfl, rfl⟩
theorem witness_FailingCommands : ∃ t, engineStep 0x00000004 tst = .next t ∧ t.status.err = true := ⟨_, rfl, by decide⟩
theorem witness_FirstError : decode 0x00000005 = .error .unknownOp ∧ decode 0x00000004 = .ok .desEcbDec ∧ decode 0x00000016 = .ok .aesCbcEnc
    ∧ decode 0x00000020 = .ok .pbkdf2 ∧ decode 0x00000000 = .ok .nop ∧ ¬ IsBufferCommand .nop := ⟨rfl, rfl, rfl, rfl, rfl, by decide⟩
theorem witness_FirstError_fails : ∃ t, engineStep 0x00000016 tst = .next t ∧ t.status.ecode ≠ .none := ⟨_, rfl, by decide⟩
theorem witness_InvariantAtReset : (64 : Word) ≠ 0 := by decide
theorem witness_Invariant_idle : Inv tstEcb := ⟨rfl, rfl, by decide, by decide⟩
theorem witness_Invariant_pending : Inv (tstBusy .wait) := ⟨rfl, rfl, by decide, by decide⟩
theorem witness_Memsize_idle : tst.status.busy = false := by decide
theorem witness_Memsize_step : ∃ t, step (tstHost (.memWrite 3 0xAA)) = .next t := ⟨_, rfl⟩
theorem witness_Nop : opField 0x00000100 = 0x00 ∧ (0x00000100 : Word) ≠ 0 := by decide
theorem witness_Clear : opField 0x00000130 = 0x30 ∧ (0x00000130 : Word) ≠ 0x00000030 := by decide
theorem witness_DesEcbReady : DesEcbReady tstEcb := by decide
theorem witness_DesEcbRecovers : DesEcbReady tstEcb ∧ tstEcb.memRead tstEcb.regs.srcAddr.toNat tstEcb.regs.srcLen.toNat
    = desEcbEncrypt (pkcs7Pad [0x50, 0x55, 0x4E, 0x4A, 0x41, 0x42] 8)
        (keySchedule (bytesToBits 64 (tstEcb.memRead tstEcb.regs.keyAddr.toNat 8))) := by decide +kernel
theorem witness_LenientUnpadding_strips : (1 ≤ (0x01 : Byte).toNat ∧ (0x01 : Byte).toNat ≤ 8)
    ∧ (1 ≤ (0x08 : Byte).toNat ∧ (0x08 : Byte).toNat ≤ 8) ∧ 8 ≤ (List.replicate 7 (0x08 : Byte)).length + 1 := by decide
theorem witness_LenientUnpadding_keeps : (0x00 : Byte).toNat = 0 ∧ 8 < (0x09 : Byte).toNat ∧ 8 < (0xFF : Byte).toNat := by decide
theorem witness_Unpadding : 1 ≤ 8 ∧ 8 ≤ 255 := by decide
theorem witness_AesKeyexp : (4 ≤ 4 ∧ 4 < 44) ∧ (4 ≤ 43 ∧ 43 < 44) := by decide
theorem witness_AesAddrk : (0 : BitVec 4).toNat ≤ 10 ∧ (10 : BitVec 4).toNat ≤ 10 := by decide
theorem witness_AesAddrkBeyond : 10 < (11 : BitVec 4).toNat ∧ 10 < (15 : BitVec 4).toNat := by decide
theorem witness_AesCbcReady : AesCbcReady tstCbc := by decide
theorem witness_Pbkdf2Ready : Pbkdf2Ready tstPbkdf2 := by decide
theorem witness_LongHmac : 64 < (List.replicate 65 (0xAA : Byte)).length ∧ (List.replicate 64 (0xAA : Byte)).length = 64 := by decide
theorem witness_ShorterDerivedKey : 16 ≤ 20 := by decide
theorem witness_BufferCommands : IsBufferCommand .desEcbDec ∧ IsBufferCommand .aesCbcEnc ∧ IsBufferCommand .pbkdf2 := by decide
theorem witness_RegisterCommands : ¬ IsBufferCommand .desKs ∧ ¬ IsBufferCommand .clear := by decide
theorem witness_OnlyTheirCommands_des : ∃ t,
    step { tstPending 0x00000001 with regs := { tst.regs with desKeyHi := 0x13345779 } } = .next t ∧ t.regs.desSk ≠ tst.regs.desSk :=
  ⟨_, rfl, by decide +kernel⟩
theorem witness_OnlyTheirCommands_aes : ∃ t, step (tstPending 0x00000010) = .next t ∧ t.regs.aesRk ≠ tst.regs.aesRk :=
  ⟨_, rfl, by decide +kernel⟩
theorem witness_CmdWrite_idle : (tstHost (.regWrite 0x000 32 0xFFFFFFFF)).host = [.regWrite 0x000 32 0xFFFFFFFF]
    ∧ (tstHost (.regWrite 0x000 32 0xFFFFFFFF)).phase = .idle ∧ (tstHost (.regWrite 0x000 32 0xFFFFFFFF)).status.busy = false := by decide
theorem witness_CmdWrite_busy : (tstBusy (.regWrite 0x000 32 0)).host = [.regWrite 0x000 32 0]
    ∧ (tstBusy (.regWrite 0x000 32 0)).phase = .pending 0x00000001 ∧ (tstBusy (.regWrite 0x000 32 0)).delay ≠ 0
    ∧ (tstBusy (.regWrite 0x000 32 0)).status.busy = true := by decide
theorem witness_WritableRegisters : tst.status.busy = false ∧ (0xFFC : BitVec 12).toNat % 4 = 0 ∧ regWritable .srcAddr = true
    ∧ regWritable (.aesState 3) = true := by decide
theorem witness_ReadOnlyWrites : tst.status.busy = false ∧ RegName.aesRk 43 ∈ [RegName.status, .outLen, .memsize, .desSkHi 0, .desSkLo 0, .aesRk 43] := by
  decide
theorem witness_ReservedOffsets : (ReservedOffset 0x038 ∧ ReservedOffset 0x03C ∧ ReservedOffset 0x070 ∧ ReservedOffset 0x07C
    ∧ ReservedOffset 0x1B0 ∧ ReservedOffset 0xFFC) ∧ (0xFFC : BitVec 12).toNat % 4 = 0 ∧ tst.status.busy = false := by decide
theorem witness_ReservedFields : (0x00000200 : Word).extractLsb' 9 3 ≠ 0 ∧ (0x00010000 : Word).extractLsb' 16 16 ≠ 0 := by decide
theorem witness_Hazard_busy : IsHazard (tstBusy .wait) (.regWrite 0x040 32 0) ∧ IsHazard (tstBusy .wait) (.memWrite 0 0) := ⟨.inl rfl, .inl rfl⟩
theorem witness_Hazard_form : IsHazard tst (.regRead 0x042 32) ∧ IsHazard tst (.regWrite 0x040 16 0) ∧ IsHazard tst (.memRead 64)
    ∧ IsHazard tst (.memWrite 64 0) :=
  ⟨.inl (by decide), .inr (.inr (by decide)), (by decide : tst.memsize.toNat ≤ 64), .inr (by decide : tst.memsize.toNat ≤ 64)⟩
theorem witness_Hazard_sticky : ∃ t, step { tstHost .reset with hazard := true } = .next t ∧ t.hazard = false := ⟨_, rfl, rfl⟩
theorem witness_Hazard_set : ∃ t, step (tstHost (.memWrite 64 0)) = .next t ∧ t.hazard = true := ⟨_, rfl, by decide⟩
theorem witness_ReadsWhileBusy : (tstBusy .wait).status.busy = true ∧ (0x008 : BitVec 12) ≠ 0x004 ∧ (0x008 : BitVec 12).toNat % 4 = 0
    ∧ 63 < (tstBusy .wait).memsize.toNat ∧ ∃ t, engineStep 0x00000000 (tstBusy .wait) = .next t :=
  ⟨by decide, by decide, by decide, by decide, _, rfl⟩
theorem witness_ResetValues : (0x034 : BitVec 12).toNat % 4 = 0 ∧ (0xFFC : BitVec 12).toNat % 4 = 0 := by decide
theorem witness_ResetAbandons : (tstBusy .reset).phase = .pending 0x00000001 ∧ (tstBusy .reset).delay ≠ 0 ∧ (tstBusy .reset).host = [.reset] := by
  decide
theorem witness_HostBytePort : tst.status.busy = false ∧ 63 < tst.memsize.toNat := by decide
theorem witness_PendingUndisturbed : Inv (tstBusy (.memRead 0)) ∧ (tstBusy (.memRead 0)).phase = .pending 0x00000001
    ∧ HostOp.reset ∉ (tstBusy (.memRead 0)).host := ⟨⟨rfl, rfl, by decide, by decide⟩, rfl, by decide⟩
theorem witness_WaitEnds : Inv (tstBusy .wait) ∧ (tstBusy .wait).phase = .pending 0x00000001 ∧ (tstBusy .wait).host = [.wait] :=
  ⟨⟨rfl, rfl, by decide, by decide⟩, rfl, rfl⟩
theorem witness_CmdStatement : expandStmt (.cmd (.desRound 3)) = some [.regWrite 0x000 32 0x00003002]
    ∧ (tstHost (.regWrite 0x000 32 0x00003002)).host = [.regWrite 0x000 32 0x00003002] ++ []
    ∧ (tstHost (.regWrite 0x000 32 0x00003002)).phase = .idle ∧ (tstHost (.regWrite 0x000 32 0x00003002)).status.busy = false := by decide
theorem witness_CmdStatement_rejected : (Instr.aesAddrk 15).wellFormed = false := by decide

end Sys2Proof.Machine
end

section
/-! SUPPORT. The state family (10_state.md): what a command, a host access and a step leave unchanged outside the CORE's own storage, which
register stands at which offset of the window, and the reserved fields of the words; then the proofs of the statements of R37, R44 and R45. -/

namespace Sys2Proof.Machine

/-! ## What the engine's step replaces -/

/-- A buffer command's state differs from the one before in the registers and DMEM only (60_exceptions.md R254). -/
theorem bufferCommand_frame {s t : State} {checks : List (Bool × ECode)} {dst : Nat} {out : Except ECode Bytes}
    (h : s.bufferCommand checks dst out = .ok t) : t = { s with regs := t.regs, dmem := t.dmem } := by
  obtain ⟨e, he, -⟩ | ⟨bytes, -, -, he⟩ := bufferCommand_cases s checks dst out
  · simp [he] at h
  · obtain rfl := Except.ok.inj (he.symm.trans h)
    rfl

/-- Every command commits an outcome that, where it is a state, differs from the one before in the registers and DMEM only. -/
theorem exec_eq_commit (i : Instr) (s : State) :
    ∃ o, exec i s = .next (s.commit o) ∧ ∀ t, o = .ok t → t = { s with regs := t.regs, dmem := t.dmem } := by
  cases i with
  | desEcbDec | aesCbcEnc | pbkdf2 => exact ⟨_, rfl, fun _ => bufferCommand_frame⟩
  | aesAddrk idx =>
    simp only [exec, execAesAddrk]
    split
    · exact ⟨_, rfl, by rintro _ ⟨⟩; rfl⟩
    · exact ⟨_, rfl, nofun⟩
  | _ => exact ⟨_, rfl, by rintro _ ⟨⟩; rfl⟩

/-- The engine's step replaces the registers, STATUS, the phase and DMEM, and nothing else. -/
theorem engineStep_frame {w : Word} {s t : State} (h : engineStep w s = .next t) :
    t = { s with regs := t.regs, status := t.status, phase := .idle, dmem := t.dmem } := by
  obtain ⟨i, -, hi⟩ | ⟨r, -, hr⟩ := engineStep_cases w s
  · obtain ⟨o, ho, hok⟩ := exec_eq_commit i s
    obtain rfl : s.commit o = t := by simpa [hi, ho] using h
    cases o with
    | error e => rfl
    | ok u => rw [commit_ok, hok u rfl]; rfl
  · obtain rfl : s.raise .illegalCmd = t := by simpa [hr] using h
    rfl

theorem engineStep_memsize {w : Word} {s t : State} (h : engineStep w s = .next t) : t.memsize = s.memsize := by
  rw [engineStep_frame h]

/-! ## What the host's turn keeps -/

/-- Everything a host register write can do: mark a hazard, start a command, store into the registers, or nothing (10_state.md R44, R45). -/
theorem hostRegWrite_cases (s : State) (off : BitVec 12) (width : Nat) (v : Word) :
    s.hostRegWrite off width v = s.markHazard ∨ s.hostRegWrite off width v = s.accept v ∨
    (∃ r, s.hostRegWrite off width v = s.setRegs r) ∨ s.hostRegWrite off width v = s := by
  unfold State.hostRegWrite
  split
  · exact .inl rfl
  · split
    · next name _ => cases name with
      | cmd => exact .inr (.inl rfl)
      | _ => exact .inr (.inr (.inl ⟨_, rfl⟩))
    · exact .inr (.inr (.inr rfl))

@[simp] theorem hostRegWrite_memsize (s : State) (off : BitVec 12) (width : Nat) (v : Word) :
    (s.hostRegWrite off width v).memsize = s.memsize := by
  obtain h | h | ⟨r, h⟩ | h := hostRegWrite_cases s off width v <;> simp [h]

@[simp] theorem hostRegRead_memsize (s : State) (off : BitVec 12) (width : Nat) :
    (s.hostRegRead off width).memsize = s.memsize := by
  unfold State.hostRegRead
  split
  · rfl
  · split <;> rfl

@[simp] theorem hostMemWrite_memsize (s : State) (a : Nat) (b : Byte) : (s.hostMemWrite a b).memsize = s.memsize := by
  unfold State.hostMemWrite
  split <;> rfl

@[simp] theorem hostMemRead_memsize (s : State) (a : Nat) : (s.hostMemRead a).memsize = s.memsize := by
  unfold State.hostMemRead
  split
  · rfl
  · split <;> rfl

@[simp] theorem hostWait_memsize (s : State) : s.hostWait.memsize = s.memsize := by
  unfold State.hostWait
  split <;> exact hostRegRead_memsize s _ _

@[simp] theorem hostAccess_memsize (s : State) (op : HostOp) : (s.hostAccess op).memsize = s.memsize := by
  cases op with
  | regWrite off width v => exact hostRegWrite_memsize s off width v
  | regRead off width => exact hostRegRead_memsize s off width
  | memWrite a b => exact hostMemWrite_memsize s a b
  | memRead a => exact hostMemRead_memsize s a
  | wait => exact hostWait_memsize s
  | reset => exact State.coreReset_memsize s

@[simp] theorem hostStep_memsize (s : State) : s.hostStep.memsize = s.memsize := by
  obtain ⟨-, h⟩ | ⟨op, rest, -, h⟩ := hostStep_cases s
  · rw [h]
  · rw [h, hostAccess_memsize]

/-- No step of either agent changes MEMSIZE (10_state.md R37). -/
theorem step_memsize {s t : State} (h : step s = .next t) : t.memsize = s.memsize := by
  obtain ⟨-, hs⟩ | ⟨w, -, -, hs⟩ | ⟨w, -, -, hs⟩ := step_cases s
  · obtain rfl : s.hostStep = t := by simpa [hs] using h
    exact hostStep_memsize s
  · exact engineStep_memsize (hs.symm.trans h)
  · obtain rfl : s.hostTurn = t := by simpa [hs] using h
    exact hostStep_memsize _

/-! ## The register map -/

/-- Every register stands at its offset of the window (10_state.md R23). -/
@[simp] theorem regAt_regOffset (name : RegName) : regAt (regOffset name) = some name := by
  cases name with
  | aesKey i | aesState i | desSkHi i | desSkLo i | aesRk i => revert i; decide
  | _ => decide

/-- Every register's offset is a multiple of 4 (10_state.md R23). -/
@[simp] theorem regOffset_aligned (name : RegName) : (regOffset name).toNat % 4 = 0 := by
  cases name with
  | aesKey i | aesState i | desSkHi i | desSkLo i | aesRk i => revert i; decide
  | _ => rfl

/-- No register stands at a reserved offset (10_state.md R44). -/
theorem regAt_reserved {off : BitVec 12} (h : ReservedOffset off) : regAt off = none := by
  obtain rfl | rfl | ⟨hlo, hhi⟩ | hlo := h
  · rfl
  · rfl
  · simp only [regAt]
    rw [if_neg (by omega), if_neg (by omega), if_neg (by omega), if_pos (by omega)]
  · simp only [regAt]
    rw [if_neg (by omega), if_neg (by omega), if_neg (by omega), if_neg (by omega), if_neg (by omega), if_neg (by omega)]

@[simp] theorem windowRead_regOffset (s : State) (name : RegName) : s.windowRead (regOffset name) = s.readReg name := by
  simp [State.windowRead]

theorem windowRead_reserved (s : State) {off : BitVec 12} (h : ReservedOffset off) : s.windowRead off = 0 := by
  simp [State.windowRead, regAt_reserved h]

/-! ## Legal host writes while idle -/

/-- A legal host write to a register while idle is the register's write (10_state.md R44, 20_memory.md R70). -/
theorem hostRegWrite_regOffset {s : State} (h : s.status.busy = false) (name : RegName) (v : Word) :
    s.hostRegWrite (regOffset name) 32 v = s.writeReg name v := by
  simp [State.hostRegWrite, legalAccess, h]

/-- A register that is neither RW nor CMD ignores what is written to it (10_state.md R45). -/
theorem writeReg_readOnly (s : State) {name : RegName} (v : Word) (hw : regWritable name = false) (hc : name ≠ .cmd) :
    s.writeReg name v = s := by
  cases name with
  | cmd => exact absurd rfl hc
  | status | outLen | memsize | desSkHi | desSkLo | aesRk => rfl
  | _ => simp [regWritable] at hw

/-- A host write to a read-only register while idle changes nothing (10_state.md R45). -/
theorem hostAccess_write_readOnly {s : State} {name : RegName} (v : Word) (h : s.status.busy = false)
    (hw : regWritable name = false) (hc : name ≠ .cmd) : s.hostAccess (.regWrite (regOffset name) 32 v) = s :=
  (hostRegWrite_regOffset h name v).trans (writeReg_readOnly s v hw hc)

/-- A legal host write to a reserved offset while idle changes nothing (10_state.md R44). -/
theorem hostAccess_write_reserved {s : State} {off : BitVec 12} (v : Word) (h : s.status.busy = false)
    (hr : ReservedOffset off) (ha : off.toNat % 4 = 0) : s.hostAccess (.regWrite off 32 v) = s := by
  simp [State.hostAccess, State.hostRegWrite, legalAccess, h, ha, regAt_reserved hr]

/-! ## Reserved fields -/

/-- STATUS[7:3] and STATUS[31:16] read 0 (10_state.md R25). -/
theorem statusWord_reserved (st : Status) :
    (statusWord st).extractLsb' 3 5 = 0 ∧ (statusWord st).extractLsb' 16 16 = 0 := by
  obtain ⟨busy, done, err, ecode⟩ := st
  revert busy done err
  cases ecode <;> decide

/-- Every row of the opcode table compares the reserved fields `w[31:16]` and `w[11:9]`, and with 0 (30_encoding.md R96). -/
theorem opcodeTable_reserved : ∀ r ∈ opcodeTable, r.mask &&& 0xFFFF0E00 = 0xFFFF0E00 ∧ r.bits &&& 0xFFFF0E00 = 0 := by
  decide

/-- A word that decodes matches a row of the opcode table, which builds its command (30_encoding.md R97). -/
theorem exists_row_of_decode_ok {w : Word} {i : Instr} (h : decode w = .ok i) :
    ∃ r ∈ opcodeTable, rowMatches r w = true ∧ r.build w = some i := by
  unfold decode at h
  split at h
  · next j hj =>
    obtain rfl := Except.ok.inj h
    obtain ⟨r, hr, hb⟩ := List.exists_of_findSome?_eq_some hj
    unfold rowDecode at hb
    split at hb
    · next hm => exact ⟨r, hr, hm, hb⟩
    · cases hb
  · cases h

/-- A word that decodes has its reserved fields at 0 (30_encoding.md R95). -/
theorem reserved_zero_of_decode_ok {w : Word} {i : Instr} (h : decode w = .ok i) : w &&& 0xFFFF0E00 = 0 := by
  obtain ⟨r, hr, hm, -⟩ := exists_row_of_decode_ok h
  obtain ⟨hmask, hbits⟩ := opcodeTable_reserved r hr
  have hm : w &&& r.mask = r.bits := by simpa [rowMatches] using hm
  calc w &&& 0xFFFF0E00 = w &&& r.mask &&& 0xFFFF0E00 := by rw [BitVec.and_assoc, hmask]
    _ = 0 := by rw [hm, hbits]

/-- The mask of the reserved fields covers `w[11:9]` and `w[31:16]` (30_encoding.md R90). -/
theorem reserved_fields_zero {w : Word} (h : w &&& 0xFFFF0E00 = 0) : w.extractLsb' 9 3 = 0 ∧ w.extractLsb' 16 16 = 0 := by
  have hl := congrArg (BitVec.extractLsb' 9 3) h
  have hh := congrArg (BitVec.extractLsb' 16 16) h
  rw [BitVec.extractLsb'_and] at hl hh
  exact ⟨(BitVec.and_allOnes ..).symm.trans hl, (BitVec.and_allOnes ..).symm.trans hh⟩

/-- A word with a reserved field not 0 is illegal (30_encoding.md R95). -/
theorem decode_error_of_reserved {w : Word} (h : w.extractLsb' 9 3 ≠ 0 ∨ w.extractLsb' 16 16 ≠ 0) : ∃ r, decode w = .error r := by
  cases hd : decode w with
  | error r => exact ⟨r, rfl⟩
  | ok i =>
    obtain ⟨hl, hh⟩ := reserved_fields_zero (reserved_zero_of_decode_ok hd)
    exact absurd h (by simp [hl, hh])

/-- DES_SK_HI[31:16] reads 0 (10_state.md R42). -/
theorem readReg_desSkHi_reserved (s : State) (i : Fin 16) : (s.readReg (.desSkHi i)).extractLsb' 16 16 = 0 := by
  simp only [State.readReg]
  ext k hk
  simp

/-! ## The statements -/

/-- Settles O12: the read is MEMSIZE's own, the write is one of a read-only register, and each agent's step keeps MEMSIZE. -/
theorem memsizeIsHardwired : Obligations.MemsizeIsHardwired := by
  refine ⟨fun s => ?_, fun s v h => ?_, fun s t h => step_memsize h⟩
  · calc s.windowRead 0x034 = s.memsize := windowRead_regOffset s .memsize
      _ = BitVec.ofNat 32 s.dmemSize := by simp [State.dmemSize]
  · exact hostAccess_write_readOnly (name := .memsize) v h rfl nofun

/-- Settles O50: a reserved offset holds no register, and every row of the opcode table compares the reserved fields with 0. -/
theorem reservedOffsetsAndFieldsReadZero : Obligations.ReservedOffsetsAndFieldsReadZero := by
  refine ⟨fun s off v hr ha => ⟨windowRead_reserved s hr, fun h => hostAccess_write_reserved v h hr ha⟩, fun s => ?_,
    fun w h => decode_error_of_reserved h⟩
  obtain ⟨hlow, hhigh⟩ := statusWord_reserved s.status
  refine ⟨windowRead_regOffset s .cmd, hlow, hhigh, fun i => ?_⟩
  rw [windowRead_regOffset]
  exact readReg_desSkHi_reserved s i

/-- Settles O49: each of the named registers is read-only and none is CMD. -/
theorem readOnlyWritesAreIgnored : Obligations.ReadOnlyWritesAreIgnored := by
  intro s v i j h name hn
  have hro : regWritable name = false ∧ name ≠ .cmd := by
    simp only [List.mem_cons, List.not_mem_nil, or_false] at hn
    obtain rfl | rfl | rfl | rfl | rfl | rfl := hn <;> exact ⟨rfl, nofun⟩
  exact hostAccess_write_readOnly v h hro.1 hro.2

end Sys2Proof.Machine
end

section
/-! SUPPORT. The memory family (20_memory.md): the overlap of two ranges as inequalities and as a shared address; then the proof of the
statement of R67. -/

namespace Sys2Proof.Machine

/-- The overlap of two ranges as inequalities (20_memory.md R67). -/
theorem overlap_iff {r q : Nat × Nat} :
    overlap r q = true ↔ 0 < r.2 ∧ 0 < q.2 ∧ r.1 < q.1 + q.2 ∧ q.1 < r.1 + r.2 := by
  simp [overlap, and_assoc]

/-- The larger of the two start addresses is the shared one. -/
theorem overlap_iff_exists_shared {r q : Nat × Nat} :
    overlap r q = true ↔ ∃ x, (r.1 ≤ x ∧ x < r.1 + r.2) ∧ (q.1 ≤ x ∧ x < q.1 + q.2) := by
  rw [overlap_iff]
  constructor
  · rintro ⟨hr, hq, hrq, hqr⟩
    exact ⟨max r.1 q.1, ⟨le_max_left .., max_lt (by omega) hqr⟩, le_max_right .., max_lt hrq (by omega)⟩
  · rintro ⟨x, ⟨hr, hr'⟩, hq, hq'⟩
    omega

@[simp] theorem overlap_empty_left (a : Nat) (q : Nat × Nat) : overlap (a, 0) q = false := by simp [overlap]

@[simp] theorem overlap_empty_right (r : Nat × Nat) (b : Nat) : overlap r (b, 0) = false := by simp [overlap]

/-! ## The statements -/

/-- Settles O45: overlap is the four inequalities, which say that the larger start address lies in both ranges; no range of length 0
meets them. -/
theorem overlapMeansASharedAddress : Obligations.OverlapMeansASharedAddress := fun a _ b _ =>
  ⟨overlap_iff, overlap_iff_exists_shared, overlap_empty_left a _, overlap_empty_right _ b⟩

end Sys2Proof.Machine
end

section
/-! SUPPORT. The encoding family (30_encoding.md): a word's five fields, the rows of the opcode table by their fields, and what a row builds;
then the proof of the statement of R95. -/

namespace Sys2Proof.Machine

/-! ## A word and its fields -/

/-- A word is its fields `w[31:16]`, IDX, `w[11:9]`, DIR and OP in a row (30_encoding.md R90). -/
theorem append_fields (w : Word) :
    w.extractLsb' 16 16 ++ idxField w ++ w.extractLsb' 9 3 ++ BitVec.ofBool (dirField w) ++ opField w = w := by
  have hdir : BitVec.ofBool (dirField w) = w.extractLsb' 8 1 := by
    rw [dirField, BitVec.getLsbD_eq_extractLsb']
    generalize w.extractLsb' 8 1 = b
    revert b
    decide
  rw [hdir, idxField, opField, BitVec.extractLsb'_append_extractLsb'_eq_extractLsb' (by rfl),
    BitVec.extractLsb'_append_extractLsb'_eq_extractLsb' (by rfl), BitVec.extractLsb'_append_extractLsb'_eq_extractLsb' (by rfl),
    BitVec.extractLsb'_append_extractLsb'_eq_extractLsb' (by rfl)]
  exact BitVec.extractLsb'_eq_self

/-- Two words are equal exactly when their fields are (30_encoding.md R90). -/
theorem word_eq_iff_fields {v w : Word} :
    v = w ↔ opField v = opField w ∧ v.extractLsb' 16 16 = w.extractLsb' 16 16 ∧ v.extractLsb' 9 3 = w.extractLsb' 9 3
      ∧ dirField v = dirField w ∧ idxField v = idxField w := by
  constructor
  · rintro rfl; exact ⟨rfl, rfl, rfl, rfl, rfl⟩
  · rintro ⟨hop, hhigh, hlow, hdir, hidx⟩
    rw [← append_fields v, hop, hhigh, hlow, hdir, hidx, append_fields]

@[simp] theorem opField_and (v w : Word) : opField (v &&& w) = opField v &&& opField w := BitVec.extractLsb'_and
@[simp] theorem dirField_and (v w : Word) : dirField (v &&& w) = (dirField v && dirField w) := BitVec.getLsbD_and
@[simp] theorem idxField_and (v w : Word) : idxField (v &&& w) = idxField v &&& idxField w := BitVec.extractLsb'_and

/-! ## The rows of the opcode table -/

/-- The OPs of the table are the fourteen of 30_encoding.md R95. -/
theorem opcodeTable_ops : opcodeTable.map (fun r => (opField r.bits).toNat) =
    [0x00, 0x01, 0x02, 0x03, 0x04, 0x10, 0x11, 0x12, 0x13, 0x14, 0x15, 0x16, 0x20, 0x30] := rfl

/-- The match of every row is its OP alone (30_encoding.md R96). -/
theorem opcodeTable_bits : ∀ r ∈ opcodeTable, r.bits = (opField r.bits).setWidth 32 := by decide

/-- Every row compares OP and the reserved fields in full, DIR except for DES_BLOCK, and IDX except for DES_ROUND and AES_ADDRK
(30_encoding.md R96). -/
theorem opcodeTable_masks : ∀ r ∈ opcodeTable,
    opField r.mask = BitVec.allOnes 8 ∧ r.mask.extractLsb' 16 16 = BitVec.allOnes 16 ∧ r.mask.extractLsb' 9 3 = BitVec.allOnes 3
    ∧ dirField r.mask = decide (opField r.bits ≠ 0x03)
    ∧ idxField r.mask = if opField r.bits = 0x02 ∨ opField r.bits = 0x14 then 0 else BitVec.allOnes 4 := by decide

/-- The fields a row's match holds at 0 (30_encoding.md R96). -/
theorem opcodeTable_zero_fields : ∀ r ∈ opcodeTable,
    r.bits.extractLsb' 16 16 = 0 ∧ r.bits.extractLsb' 9 3 = 0 ∧ dirField r.bits = false ∧ idxField r.bits = 0 := by decide

/-- Mask and match of a row by the fields of the word (30_encoding.md R95, R96). -/
theorem mask_match_iff_fields {r : OpcodeRow} (hr : r ∈ opcodeTable) {w : Word} :
    w &&& r.mask = r.bits ↔ opField w = opField r.bits ∧ w.extractLsb' 16 16 = 0 ∧ w.extractLsb' 9 3 = 0
      ∧ (dirField w = true → opField w = 0x03) ∧ (idxField w ≠ 0 → opField w = 0x02 ∨ opField w = 0x14) := by
  obtain ⟨hmop, hmhigh, hmlow, hmdir, hmidx⟩ := opcodeTable_masks r hr
  obtain ⟨hhigh, hlow, hdir, hidx⟩ := opcodeTable_zero_fields r hr
  simp only [word_eq_iff_fields, opField_and, dirField_and, idxField_and, BitVec.extractLsb'_and, hmop, hmhigh, hmlow, hmdir, hmidx,
    hhigh, hlow, hdir, hidx, BitVec.and_allOnes]
  refine and_congr_right fun hop => and_congr_right fun _ => and_congr_right fun _ => and_congr ?_ ?_ <;> rw [hop]
  · cases dirField w <;> simp
  · split
    · next h => exact iff_of_true BitVec.and_zero fun _ => h
    · next h => rw [BitVec.and_allOnes, imp_iff_not h, not_ne_iff]

/-- A row builds a command from every word, the row of AES_ADDRK only with IDX up to 10 (30_encoding.md R94, R96). -/
theorem opcodeTable_builds (w : Word) : ∀ r ∈ opcodeTable,
    (∃ i, r.build w = some i) ↔ (r.bits = 0x00000014 → (idxField w).toNat ≤ 10) := by
  simp [opcodeTable, opcodeRowsDes, opcodeRowsAes, buildAddrk]

/-! ## The legal words -/

/-- A word decodes exactly when a row matches it and builds a command from it (30_encoding.md R97). -/
theorem decodes_iff_row_builds {w : Word} :
    (∃ i, decode w = .ok i) ↔ ∃ r ∈ opcodeTable, rowMatches r w = true ∧ ∃ i, r.build w = some i := by
  constructor
  · rintro ⟨i, h⟩
    obtain ⟨r, hr, hm, hb⟩ := exists_row_of_decode_ok h
    exact ⟨r, hr, hm, i, hb⟩
  · rintro ⟨r, hr, hm, i, hb⟩
    have hsome : (opcodeTable.findSome? (rowDecode w)).isSome :=
      List.findSome?_isSome_iff.2 ⟨r, hr, by simp [rowDecode, hm, hb]⟩
    obtain ⟨j, hj⟩ := Option.isSome_iff_exists.1 hsome
    exact ⟨j, by simp [decode, hj]⟩

/-- The legal words by mask and match, with AES_ADDRK's range (30_encoding.md R95). -/
theorem decodes_iff_mask_match {w : Word} :
    (∃ i, decode w = .ok i) ↔
      ∃ r ∈ opcodeTable, w &&& r.mask = r.bits ∧ (r.bits = 0x00000014 → (idxField w).toNat ≤ 10) := by
  rw [decodes_iff_row_builds]
  refine exists_congr fun r => and_congr_right fun hr => ?_
  rw [opcodeTable_builds w r hr, rowMatches, decide_eq_true_eq]

/-- A word has one of the fourteen OPs exactly when it has the OP of a row (30_encoding.md R95, R96). -/
theorem op_legal_iff_row {w : Word} :
    (opField w).toNat ∈ [0x00, 0x01, 0x02, 0x03, 0x04, 0x10, 0x11, 0x12, 0x13, 0x14, 0x15, 0x16, 0x20, 0x30] ↔
      ∃ r ∈ opcodeTable, opField w = opField r.bits := by
  rw [← opcodeTable_ops, List.mem_map]
  simp only [BitVec.toNat_inj, eq_comm]

/-- The legal words by mask and match are those by the fields (30_encoding.md R95). -/
theorem mask_match_iff_legalFields {w : Word} :
    (∃ r ∈ opcodeTable, w &&& r.mask = r.bits ∧ (r.bits = 0x00000014 → (idxField w).toNat ≤ 10)) ↔ LegalFields w := by
  constructor
  · rintro ⟨r, hr, hm, hrange⟩
    obtain ⟨hop, hhigh, hlow, hdir, hidx⟩ := (mask_match_iff_fields hr).1 hm
    refine ⟨op_legal_iff_row.2 ⟨r, hr, hop⟩, hhigh, hlow, hdir, hidx, fun haddrk => hrange ?_⟩
    rw [opcodeTable_bits r hr, ← hop, haddrk]
    rfl
  · rintro ⟨hop, hhigh, hlow, hdir, hidx, hrange⟩
    obtain ⟨r, hr, hop⟩ := op_legal_iff_row.1 hop
    refine ⟨r, hr, (mask_match_iff_fields hr).2 ⟨hop, hhigh, hlow, hdir, hidx⟩, fun hbits => hrange ?_⟩
    rw [hop, hbits]
    rfl

/-- A word that no row takes completes with ILLEGAL_CMD and changes nothing else (30_encoding.md R95, 60_exceptions.md R252). -/
theorem engineStep_of_not_decodes {w : Word} (h : ¬ ∃ i, decode w = .ok i) (s : State) :
    engineStep w s = .next (s.raise .illegalCmd) := by
  obtain ⟨i, hi, -⟩ | ⟨r, -, hr⟩ := engineStep_cases w s
  · exact absurd ⟨i, hi⟩ h
  · exact hr

/-! ## The statement -/

/-- Settles O3: a word decodes when a row of the opcode table matches it and builds from it, and a row's mask and match, read field by field,
are the conditions on the fields; every other word takes the engine's error path. -/
theorem legalWordsAreThoseOfTheFields : Obligations.LegalWordsAreThoseOfTheFields := by
  intro w
  have hfields : (∃ i, decode w = .ok i) ↔ LegalFields w := decodes_iff_mask_match.trans mask_match_iff_legalFields
  exact ⟨hfields, decodes_iff_mask_match, fun h s => engineStep_of_not_decodes (mt hfields.1 h) s⟩

end Sys2Proof.Machine
end

section
/-! SUPPORT. The DES-ECB family (43_des_ecb.md): the lenient unpadding of a buffer by its last byte; then the proof of the statement of R160. -/

namespace Sys2Proof.Machine

/-! ## Unpadding by the last byte -/

/-- The last byte alone decides whether bytes are stripped and how many (43_des_ecb.md R160). -/
theorem pkcs7UnpadLenient_concat (p : Bytes) (v : Byte) (bs : Nat) :
    pkcs7UnpadLenient (p ++ [v]) bs =
      if 1 ≤ v.toNat ∧ v.toNat ≤ bs then (p ++ [v]).take (p.length + 1 - v.toNat) else p ++ [v] := by
  simp [pkcs7UnpadLenient]

/-- A count from 1 to the block size strips that many bytes, the count itself among them, whatever the others are (43_des_ecb.md R160). -/
theorem pkcs7UnpadLenient_concat_strips (p : Bytes) {v : Byte} {bs : Nat} (hpos : 1 ≤ v.toNat) (hle : v.toNat ≤ bs) :
    pkcs7UnpadLenient (p ++ [v]) bs = p.take (p.length + 1 - v.toNat) := by
  rw [pkcs7UnpadLenient_concat, if_pos ⟨hpos, hle⟩]
  exact List.take_append_of_le_length (by omega)

/-- A last byte that is no count for the block size leaves the buffer as it is (43_des_ecb.md R160, R164). -/
theorem pkcs7UnpadLenient_concat_keeps (p : Bytes) {v : Byte} {bs : Nat} (h : v.toNat = 0 ∨ bs < v.toNat) :
    pkcs7UnpadLenient (p ++ [v]) bs = p ++ [v] := by
  rw [pkcs7UnpadLenient_concat, if_neg (by omega)]

/-! ## The statement -/

/-- Settles O26: with the last byte written apart from the rest, the unpadding either takes a prefix of the rest or keeps the buffer, as that
byte's value says. -/
theorem lenientUnpaddingReadsTheLastByteOnly : Obligations.LenientUnpaddingReadsTheLastByteOnly := by
  intro p v
  refine ⟨fun ⟨hpos, hle⟩ hblock => ?_, pkcs7UnpadLenient_concat_keeps p⟩
  have hstrip := pkcs7UnpadLenient_concat_strips p hpos hle
  refine ⟨hstrip, ?_⟩
  rw [hstrip, List.length_take]
  omega

end Sys2Proof.Machine
end

section
/-! SUPPORT. The AES key expansion family (45_aes_key_expansion.md): the affine map of the S-box undone, so that the table itself names the
inverse each entry comes from; then the proof of the statement of R201. -/

namespace Sys2Proof.Machine

/-! ## The affine map undone -/

/-- The linear map that undoes `affineA`: as polynomials modulo `t^8 + 1` over GF(2), `(t + t^3 + t^6)·(1 + t + t^2 + t^3 + t^4) = 1`
(45_aes_key_expansion.md R201). -/
def affineAInv (b : Byte) : Byte := b.rotateLeft 1 ^^^ b.rotateLeft 3 ^^^ b.rotateLeft 6

/-- `affineA` takes every byte back from `affineAInv`. -/
theorem affineA_affineAInv : ∀ b : Byte, affineA (affineAInv b) = b := by decide +kernel

/-! ## The inverse that an S-box entry comes from -/

/-- The byte whose affine image xor 0x63 is the entry `SBOX_AES[x]` (45_aes_key_expansion.md R201). -/
def sboxPreimage (x : Byte) : Byte := affineAInv (sboxAes x ^^^ 0x63)

/-- Every entry is the affine image of its preimage xor 0x63, whatever the table holds. -/
theorem sboxAes_eq_affineA_sboxPreimage (x : Byte) : sboxAes x = affineA (sboxPreimage x) ^^^ 0x63 := by
  rw [sboxPreimage, affineA_affineAInv, BitVec.xor_assoc, BitVec.xor_self, BitVec.xor_zero]

/-- The entry at 0 comes from `inv(0) = 0` (45_aes_key_expansion.md R201). -/
theorem sboxPreimage_zero : sboxPreimage 0 = 0 := by decide

/-- The entry at a nonzero byte comes from that byte's inverse in GF(2^8): one product for each of the 255 entries
(45_aes_key_expansion.md R201). -/
theorem gfMul_sboxPreimage : ∀ x : Byte, x ≠ 0 → gfMul x (sboxPreimage x) 8 = 1 := by decide +kernel

/-- No entry of the table is its own index (45_aes_key_expansion.md R201). -/
theorem sboxAes_ne_self : ∀ x : Byte, sboxAes x ≠ x := by decide +kernel

/-! ## The statement -/

/-- Settles O35: undoing the affine map on an entry gives a byte, and by the table's contents that byte is the inverse of the entry's index. -/
theorem aesSboxIsTheAffineInverse : Obligations.AesSboxIsTheAffineInverse := by
  intro x
  refine ⟨sboxPreimage x, ?_, sboxAes_eq_affineA_sboxPreimage x, sboxAes_ne_self x⟩
  split
  · next hzero => rw [hzero, sboxPreimage_zero]
  · next hne => exact gfMul_sboxPreimage x hne

end Sys2Proof.Machine
end

section
/-! SUPPORT. The control family (48_control.md): the one legal word of a command without operands, and the next states of NOP and CLEAR;
then the proofs of the statements of R240 and R241. -/

namespace Sys2Proof.Machine

/-! ## The words of a command without operands -/

/-- A legal word whose OP takes neither DIR nor IDX is that OP alone (30_encoding.md R95, R96). -/
theorem eq_op_of_decodes {w : Word} (h : ∃ i, decode w = .ok i) (hnodir : opField w ≠ 0x03)
    (hnoidx : ¬ (opField w = 0x02 ∨ opField w = 0x14)) : w = (opField w).setWidth 32 := by
  obtain ⟨r, hr, hm, -⟩ := decodes_iff_mask_match.1 h
  obtain ⟨hop, hhigh, hlow, hdir, hidx⟩ := (mask_match_iff_fields hr).1 hm
  obtain ⟨bhigh, blow, bdir, bidx⟩ := opcodeTable_zero_fields r hr
  have hdir0 : dirField w = false := Bool.eq_false_iff.2 (mt hdir hnodir)
  have hidx0 : idxField w = 0 := not_ne_iff.1 (mt hidx hnoidx)
  calc w = r.bits := word_eq_iff_fields.2
        ⟨hop, hhigh.trans bhigh.symm, hlow.trans blow.symm, hdir0.trans bdir.symm, hidx0.trans bidx.symm⟩
    _ = (opField w).setWidth 32 := by rw [hop]; exact opcodeTable_bits r hr

/-- With such an OP, a word that has any other bit set is illegal (48_control.md R240, R241). -/
theorem decode_error_of_ne_op {w : Word} {op : BitVec 8} (hop : opField w = op) (hne : w ≠ op.setWidth 32)
    (hnodir : op ≠ 0x03) (hnoidx : ¬ (op = 0x02 ∨ op = 0x14)) : ∃ r, decode w = .error r := by
  subst hop
  cases hd : decode w with
  | error r => exact ⟨r, rfl⟩
  | ok i => exact absurd (eq_op_of_decodes ⟨i, hd⟩ hnodir hnoidx) hne

/-! ## The next states -/

theorem exec_nop (s : State) : exec .nop s = .next s.completeOk := rfl

theorem exec_clear (s : State) : exec .clear s = .next (s.setRegs s.regs.cleared).completeOk := rfl

/-- `complete OK` replaces STATUS and the phase only (60_exceptions.md R251). -/
theorem completeOk_eq (s : State) : s.completeOk = { s with status := okStatus, phase := .idle } := rfl

/-- CLEAR keeps the eleven registers that hold no key and puts every other one at its reset value (48_control.md R241, 10_state.md R51). -/
theorem cleared_eq_reset_with (r : Regs) :
    r.cleared = { Regs.reset with
      srcAddr := r.srcAddr, srcLen := r.srcLen, dstAddr := r.dstAddr, outLen := r.outLen, keyAddr := r.keyAddr, keyLen := r.keyLen,
      ivAddr := r.ivAddr, saltAddr := r.saltAddr, saltLen := r.saltLen, iter := r.iter, dkLen := r.dkLen } := rfl

@[simp] theorem quadGet_const (v : Word) (c : Fin 4) : quadGet ⟨v, v, v, v⟩ c = v := by
  fin_cases c <;> rfl

/-! ## The statements -/

/-- Settles O13: 0 is the one legal word with OP 0x00, and NOP commits the state it started from. -/
theorem nopOnlyCompletes : Obligations.NopOnlyCompletes := by
  refine ⟨rfl, fun w hop hne => decode_error_of_ne_op hop hne (by decide) (by decide), fun s => ?_, rfl, rfl⟩
  rw [exec_nop, completeOk_eq, okStatus]

/-- Settles O14: 0x30 is the one legal word with that OP, and CLEAR commits the cleared registers, which are reset's but for the eleven it
keeps. -/
theorem clearErasesTheKeyRegisters : Obligations.ClearErasesTheKeyRegisters := by
  refine ⟨rfl, fun w hop hne => decode_error_of_ne_op hop hne (by decide) (by decide), fun s => ?_⟩
  refine ⟨_, exec_clear s, completeOk_eq _, cleared_eq_reset_with s.regs, rfl, rfl, rfl, rfl, ?_⟩
  simp

end Sys2Proof.Machine
end

section
/-! SUPPORT. The exceptions family (60_exceptions.md): the machine's step by phase and delay, the completion of an engine step, the first
error of the range checks and of each buffer command; then the proofs of the statements of R250, R252, R253 and R254. -/

namespace Sys2Proof.Machine

/-! ## The step by phase and delay -/

theorem step_of_idle {s : State} (hp : s.phase = .idle) : step s = .next s.hostStep := by
  simp [step, hp]

theorem step_of_delay_zero {s : State} {w : Word} (hp : s.phase = .pending w) (hd : s.delay = 0) : step s = engineStep w s := by
  simp [step, hp, hd]

theorem step_of_delay_ne_zero {s : State} {w : Word} (hp : s.phase = .pending w) (hd : s.delay ≠ 0) : step s = .next s.hostTurn := by
  simp [step, hp, hd]

theorem hostStep_cons {s : State} {op : HostOp} {rest : List HostOp} (h : s.host = op :: rest) :
    s.hostStep = ({ s with host := rest } : State).hostAccess op := by
  simp [State.hostStep, h]

theorem hostTurn_cons {s : State} {op : HostOp} {rest : List HostOp} (h : s.host = op :: rest) :
    s.hostTurn = ({ s with delay := s.delay - 1, host := rest } : State).hostAccess op :=
  hostStep_cons (s := { s with delay := s.delay - 1 }) h

/-- A register write while BUSY is a hazard, whatever it writes and wherever (70_reset_and_hazards.md R290). -/
theorem hostRegWrite_busy {s : State} (h : s.status.busy = true) (off : BitVec 12) (width : Nat) (v : Word) :
    s.hostRegWrite off width v = s.markHazard := by
  simp [State.hostRegWrite, h]

/-! ## The completion of an engine step -/

theorem engineStep_of_ok {w : Word} {i : Instr} (h : decode w = .ok i) (s : State) : engineStep w s = exec i s := by
  simp [engineStep, h]

theorem engineStep_of_error {w : Word} {r : IllegalReason} (h : decode w = .error r) (s : State) :
    engineStep w s = .next (s.raise .illegalCmd) :=
  engineStep_of_not_decodes (by simp [h]) s

/-- The engine's step commits one outcome (60_exceptions.md R251). -/
theorem engineStep_eq_commit (w : Word) (s : State) : ∃ o, engineStep w s = .next (s.commit o) := by
  obtain ⟨i, -, hi⟩ | ⟨r, -, hr⟩ := engineStep_cases w s
  · obtain ⟨o, ho, -⟩ := exec_eq_commit i s
    exact ⟨o, hi.trans ho⟩
  · exact ⟨.error .illegalCmd, hr⟩

theorem engineStep_next (w : Word) (s : State) : ∃ t, engineStep w s = .next t :=
  let ⟨_, ho⟩ := engineStep_eq_commit w s
  ⟨_, ho⟩

/-- STATUS after an engine step is the completion with its ECODE, and with an ECODE other than 0 nothing but STATUS and the phase changed
(60_exceptions.md R251, R254). -/
theorem engineStep_completes {w : Word} {s t : State} (h : engineStep w s = .next t) :
    t.status = completedStatus t.status.ecode ∧ (t.status.ecode ≠ .none → t = { s with status := t.status, phase := .idle }) := by
  obtain ⟨o, ho⟩ := engineStep_eq_commit w s
  obtain rfl : s.commit o = t := by simpa [ho] using h
  cases o with
  | error e => exact ⟨rfl, fun _ => rfl⟩
  | ok u => exact ⟨rfl, fun hne => absurd rfl hne⟩

/-- STATUS of a completion with ILLEGAL_CMD: DONE, ERR and ECODE = 0x01 (60_exceptions.md R252). -/
theorem statusWord_illegalCmd : statusWord (completedStatus .illegalCmd) = 0x00000106 := by decide

/-- An error's report changes no register but STATUS (60_exceptions.md R252, R254). -/
theorem readReg_raise (s : State) (e : ECode) {name : RegName} (h : name ≠ .status) : (s.raise e).readReg name = s.readReg name := by
  cases name with
  | status => exact absurd rfl h
  | _ => rfl

/-! ## The first error of a buffer command -/

theorem overlap_eq_false_iff_apart {r q : Nat × Nat} : overlap r q = false ↔ Apart r.1 r.2 q.1 q.2 := by
  rw [← Bool.not_eq_true, overlap_iff]
  omega

/-- The range checks report BOUNDS before OVERLAP (60_exceptions.md R253). -/
theorem firstError_rangeErrors (size : Nat) (dst : Nat × Nat) (srcs : List (Nat × Nat)) :
    firstError (rangeErrors size dst srcs) =
      if ¬ ((∀ r ∈ srcs, r.1 + r.2 ≤ size) ∧ dst.1 + dst.2 ≤ size) then some .bounds
      else if ¬ ∀ r ∈ srcs, Apart dst.1 dst.2 r.1 r.2 then some .overlap
      else none := by
  have hfits : (!(srcs.all (inBounds size) && inBounds size dst)) = true ↔
      ¬ ((∀ r ∈ srcs, r.1 + r.2 ≤ size) ∧ dst.1 + dst.2 ≤ size) := by
    rw [Bool.not_eq_true', ← Bool.not_eq_true, Bool.and_eq_true, List.all_eq_true]
    simp only [inBounds, decide_eq_true_eq]
  have hapart : srcs.any (overlap dst) = true ↔ ¬ ∀ r ∈ srcs, Apart dst.1 dst.2 r.1 r.2 := by
    rw [List.any_eq_true, not_forall]
    simp only [← overlap_eq_false_iff_apart, Bool.not_eq_false, not_forall, exists_prop]
  simp only [rangeErrors, firstError_cons, firstError_nil, hfits, hapart]

/-- A buffer command whose function has no error of its own once the checks pass reports the first error of the checks, or none. -/
theorem commit_bufferCommand_ecode (s : State) {checks : List (Bool × ECode)} (dst : Nat) {out : Except ECode Bytes}
    (hout : firstError checks = none → ∃ bytes, out = .ok bytes) :
    (s.commit (s.bufferCommand checks dst out)).status.ecode = (firstError checks).getD .none := by
  obtain ⟨e, he, hfirst | ⟨hnone, herr⟩⟩ | ⟨bytes, hnone, -, hok⟩ := bufferCommand_cases s checks dst out
  · simp [he, hfirst]
  · obtain ⟨bytes, hbytes⟩ := hout hnone
    simp [herr] at hbytes
  · simp [hok, hnone]

/-- The checks of DES_ECB_DEC make its function's own two checks, which therefore never fail (43_des_ecb.md R161, R163). -/
theorem desEcbDecrypt_ok {s : State} (h : firstError (desEcbChecks s) = none) :
    ∃ bytes, desEcbDecrypt (s.memRead s.regs.srcAddr.toNat s.regs.srcLen.toNat) (s.memRead s.regs.keyAddr.toNat 8) = .ok bytes := by
  have hlen : ¬ (s.regs.srcLen.toNat = 0 ∨ s.regs.srcLen.toNat % 8 ≠ 0) :=
    of_decide_eq_false (firstError_eq_none.1 h _ (List.mem_cons_self ..))
  simp [desEcbDecrypt, hlen]

theorem exec_desEcbDec_ecode {s t : State} (h : exec .desEcbDec s = .next t) :
    t.status.ecode = (firstError (desEcbChecks s)).getD .none := by
  cases h
  exact commit_bufferCommand_ecode s _ desEcbDecrypt_ok

theorem exec_aesCbcEnc_ecode {s t : State} (h : exec .aesCbcEnc s = .next t) :
    t.status.ecode = (firstError (aesCbcChecks s)).getD .none := by
  cases h
  exact commit_bufferCommand_ecode s _ fun _ => ⟨_, rfl⟩

theorem exec_pbkdf2_ecode {s t : State} (h : exec .pbkdf2 s = .next t) :
    t.status.ecode = (firstError (pbkdf2Checks s)).getD .none := by
  cases h
  exact commit_bufferCommand_ecode s _ fun _ => ⟨_, rfl⟩

/-! ## Register commands do not fail -/

/-- What a row builds is well formed: AES_ADDRK's row checks its index (30_encoding.md R94, R95). -/
theorem opcodeTable_builds_wellFormed (w : Word) : ∀ r ∈ opcodeTable, ∀ i, r.build w = some i → i.wellFormed = true := by
  have haddrk : ∀ i, buildAddrk w = some i → i.wellFormed = true := by
    intro i h
    unfold buildAddrk at h
    split at h
    · next hidx => cases h; exact decide_eq_true hidx
    · cases h
  simpa [opcodeTable, opcodeRowsDes, opcodeRowsAes, Instr.wellFormed] using haddrk

theorem wellFormed_of_decode_ok {w : Word} {i : Instr} (h : decode w = .ok i) : i.wellFormed = true := by
  obtain ⟨r, hr, -, hb⟩ := exists_row_of_decode_ok h
  exact opcodeTable_builds_wellFormed w r hr i hb

/-- A legal command that works on registers only completes without an error (60_exceptions.md R253). -/
theorem exec_register_ecode {i : Instr} {s t : State} (hb : ¬ IsBufferCommand i) (hw : i.wellFormed = true) (h : exec i s = .next t) :
    t.status.ecode = .none := by
  cases i with
  | desEcbDec | aesCbcEnc | pbkdf2 => simp at hb
  | aesAddrk idx =>
    have hidx : idx.toNat ≤ 10 := of_decide_eq_true hw
    simp only [exec, execAesAddrk, if_pos hidx] at h
    cases h
    rfl
  | _ => cases h; rfl

/-! ## The statements -/

/-- Settles O47: while idle the write of CMD is the acceptance, while BUSY it marks the hazard. -/
theorem cmdWriteIsAcceptedWhileIdle : Obligations.CmdWriteIsAcceptedWhileIdle := by
  intro s w rest hhost
  refine ⟨fun hp hb => ⟨({ s with host := rest } : State).accept w, ?_, rfl⟩,
    fun v hp hd hb => ⟨({ s with delay := s.delay - 1, host := rest } : State).markHazard, ?_, rfl, hp⟩⟩
  · rw [step_of_idle hp, hostStep_cons hhost]
    exact congrArg _ (hostRegWrite_regOffset (s := { s with host := rest }) hb .cmd w)
  · rw [step_of_delay_ne_zero hp hd, hostTurn_cons hhost]
    exact congrArg _ (hostRegWrite_busy (s := { s with delay := s.delay - 1, host := rest }) hb 0x000 32 w)

/-- Settles O7: the engine's step on an illegal word is the report of ILLEGAL_CMD alone. -/
theorem illegalWordReportsAndChangesNothing : Obligations.IllegalWordReportsAndChangesNothing := by
  intro s w r hp hd hw
  exact ⟨s.raise .illegalCmd, (step_of_delay_zero hp hd).trans (engineStep_of_error hw s), rfl,
    statusWord_illegalCmd, fun _ hn => readReg_raise s .illegalCmd hn, readByte_congr rfl rfl⟩

/-- Settles O8: ERR is set only with an ECODE other than 0, and such a completion is an error's report alone. -/
theorem failingCommandsArePrecise : Obligations.FailingCommandsArePrecise := by
  intro w s t h herr
  obtain ⟨hstatus, hreport⟩ := engineStep_completes h
  have hne : t.status.ecode ≠ .none := by
    rw [hstatus, completedStatus_err] at herr
    exact of_decide_eq_true herr
  exact ⟨hreport hne, by rw [hstatus]; rfl, by rw [hstatus]; rfl, hne⟩

/-- Settles O9: each buffer command reports the first error of its checks, in the order in which they are listed, a legal register command
reports none, and the error paths write no DMEM. -/
theorem firstErrorInOrderIsReported : Obligations.FirstErrorInOrderIsReported := by
  intro w s
  obtain ⟨t, h⟩ := engineStep_next w s
  refine ⟨t, h, fun r hd => ?_, fun hd => ?_, fun hd => ?_, fun hd => ?_, fun i hd hb => ?_, fun hne => ?_⟩
  · cases (engineStep_of_error hd s).symm.trans h
    rfl
  · rw [exec_desEcbDec_ecode ((engineStep_of_ok hd s).symm.trans h)]
    simp only [desEcbChecks, firstError_cons, firstError_rangeErrors, decide_eq_true_eq, List.forall_mem_cons, List.not_mem_nil,
      false_imp_iff, implies_true, and_true, and_assoc, rangeOf, State.dmemSize]
    split_ifs <;> rfl
  · rw [exec_aesCbcEnc_ecode ((engineStep_of_ok hd s).symm.trans h)]
    simp only [aesCbcChecks, firstError_cons, firstError_rangeErrors, decide_eq_true_eq, List.forall_mem_cons, List.not_mem_nil,
      false_imp_iff, implies_true, and_true, and_assoc, cbcLength, paddedLen, rangeOf, State.dmemSize]
    split_ifs <;> rfl
  · rw [exec_pbkdf2_ecode ((engineStep_of_ok hd s).symm.trans h)]
    simp only [pbkdf2Checks, firstError_cons, firstError_rangeErrors, decide_eq_true_eq, List.forall_mem_cons, List.not_mem_nil,
      false_imp_iff, implies_true, and_true, and_assoc, rangeOf, State.dmemSize]
    split_ifs <;> rfl
  · exact exec_register_ecode hb (wellFormed_of_decode_ok hd) ((engineStep_of_ok hd s).symm.trans h)
  · rw [(engineStep_completes h).2 hne]

end Sys2Proof.Machine
end

section
/-! SUPPORT. The hazards family (70_reset_and_hazards.md): the conditions of the four host accesses as the hazards of R290, what a hazardous
access does, the mark after any access and after any step, and what a read returns while a command is pending; then the proofs of the
statements of R290 and R291. -/

namespace Sys2Proof.Machine

/-! ## The accesses that are hazards -/

/-- The form of a register access is legal when it is neither misaligned nor of another width (20_memory.md R70). -/
theorem not_legalAccess_iff {off : BitVec 12} {width : Nat} : (!legalAccess off width) = true ↔ off.toNat % 4 ≠ 0 ∨ width ≠ 32 := by
  simp [legalAccess]

theorem isHazard_regWrite_iff {s : State} {off : BitVec 12} {width : Nat} {v : Word} :
    IsHazard s (.regWrite off width v) ↔ (s.status.busy || !legalAccess off width) = true := by
  rw [Bool.or_eq_true, not_legalAccess_iff, IsHazard]

theorem isHazard_regRead_iff {s : State} {off : BitVec 12} {width : Nat} :
    IsHazard s (.regRead off width) ↔ (!legalAccess off width) = true := not_legalAccess_iff.symm

theorem isHazard_memWrite_iff {s : State} {a : Nat} {b : Byte} :
    IsHazard s (.memWrite a b) ↔ (s.status.busy || s.dmemSize ≤ a) = true := by
  rw [Bool.or_eq_true, decide_eq_true_eq, IsHazard, State.dmemSize]

/-- The read of STATUS that `wait` makes is well formed (30_encoding.md R100). -/
theorem not_isHazard_regRead_regOffset (s : State) (name : RegName) : ¬ IsHazard s (.regRead (regOffset name) 32) := by
  simp [IsHazard]

/-! ## What a hazardous access does (R290) -/

theorem hostRegWrite_of_isHazard {s : State} {off : BitVec 12} {width : Nat} {v : Word} (h : IsHazard s (.regWrite off width v)) :
    s.hostRegWrite off width v = s.markHazard := if_pos (isHazard_regWrite_iff.1 h)

theorem hostRegRead_of_isHazard {s : State} {off : BitVec 12} {width : Nat} (h : IsHazard s (.regRead off width)) :
    s.hostRegRead off width = s.markHazard.recordFreeWord off := if_pos (isHazard_regRead_iff.1 h)

theorem hostMemWrite_of_isHazard {s : State} {a : Nat} {b : Byte} (h : IsHazard s (.memWrite a b)) :
    s.hostMemWrite a b = s.markHazard := if_pos (isHazard_memWrite_iff.1 h)

theorem hostMemRead_of_isHazard {s : State} {a : Nat} (h : IsHazard s (.memRead a)) :
    s.hostMemRead a = s.markHazard.recordFreeByte a := if_pos h

/-! ## What the other accesses do -/

theorem hostRegWrite_of_not_isHazard {s : State} {off : BitVec 12} {width : Nat} {v : Word} (h : ¬ IsHazard s (.regWrite off width v)) :
    s.hostRegWrite off width v = s ∨ ∃ name, s.hostRegWrite off width v = s.writeReg name v := by
  rw [State.hostRegWrite, if_neg (mt isHazard_regWrite_iff.2 h)]
  cases regAt off with
  | none => exact .inl rfl
  | some name => exact .inr ⟨name, rfl⟩

/-- A well-formed register read is of any value where the register is not STATUS and the engine is busy (R291). -/
theorem hostRegRead_of_not_isHazard {s : State} {off : BitVec 12} {width : Nat} (h : ¬ IsHazard s (.regRead off width)) :
    s.hostRegRead off width =
      if s.status.busy && off ≠ regOffset .status then s.recordFreeWord off else s.record (.reg off (s.windowRead off)) :=
  if_neg (mt isHazard_regRead_iff.2 h)

theorem hostMemWrite_of_not_isHazard {s : State} {a : Nat} {b : Byte} (h : ¬ IsHazard s (.memWrite a b)) :
    s.hostMemWrite a b = s.memWrite a [b] := if_neg (mt isHazard_memWrite_iff.2 h)

/-- A DMEM read within DMEM is of any value where the engine is busy (R291). -/
theorem hostMemRead_of_not_isHazard {s : State} {a : Nat} (h : ¬ IsHazard s (.memRead a)) :
    s.hostMemRead a = if s.status.busy then s.recordFreeByte a else s.record (.mem a (s.readByte a)) := if_neg h

/-! ## The mark after an access and after a step (R290) -/

@[simp] theorem writeReg_hazard (s : State) (name : RegName) (v : Word) : (s.writeReg name v).hazard = s.hazard := by
  cases name <;> rfl

/-- A hazardous access leaves the mark set. -/
theorem hostAccess_hazard_of_isHazard {s : State} {op : HostOp} (h : IsHazard s op) : (s.hostAccess op).hazard = true := by
  cases op with
  | regWrite off width v => exact congrArg State.hazard (hostRegWrite_of_isHazard h)
  | regRead off width => exact congrArg State.hazard (hostRegRead_of_isHazard h)
  | memWrite a b => exact congrArg State.hazard (hostMemWrite_of_isHazard h)
  | memRead a => exact congrArg State.hazard (hostMemRead_of_isHazard h)
  | wait | reset => exact h.elim

theorem hostRegRead_hazard_of_not_isHazard {s : State} {off : BitVec 12} {width : Nat} (h : ¬ IsHazard s (.regRead off width)) :
    (s.hostRegRead off width).hazard = s.hazard := by
  rw [hostRegRead_of_not_isHazard h]
  split <;> rfl

@[simp] theorem hostWait_hazard (s : State) : s.hostWait.hazard = s.hazard := by
  unfold State.hostWait
  split <;> exact hostRegRead_hazard_of_not_isHazard (not_isHazard_regRead_regOffset s .status)

/-- An access that is no hazard leaves the mark as it is, reset apart. -/
theorem hostAccess_hazard_of_not_isHazard {s : State} {op : HostOp} (hr : op ≠ .reset) (h : ¬ IsHazard s op) :
    (s.hostAccess op).hazard = s.hazard := by
  cases op with
  | regWrite off width v =>
    obtain hs | ⟨name, hs⟩ := hostRegWrite_of_not_isHazard h
    · exact congrArg State.hazard hs
    · exact (congrArg State.hazard hs).trans (writeReg_hazard s name v)
  | regRead off width => exact hostRegRead_hazard_of_not_isHazard h
  | memWrite a b => exact (congrArg State.hazard (hostMemWrite_of_not_isHazard h)).trans (State.memWrite_hazard s a [b])
  | memRead a =>
    rw [State.hostAccess, hostMemRead_of_not_isHazard h]
    split <;> rfl
  | wait => exact hostWait_hazard s
  | reset => exact absurd rfl hr

/-- Whether an access is a hazard depends on STATUS and DMEM_SIZE alone. -/
theorem IsHazard.congr {s t : State} {op : HostOp} (h : IsHazard s op) (hstatus : t.status = s.status) (hsize : t.memsize = s.memsize) :
    IsHazard t op := by
  cases op with
  | wait | reset => exact h
  | _ => simpa only [IsHazard, hstatus, hsize] using h

/-- A turn of the host keeps the mark, or makes a hazardous access and sets it, or resets the CORE and clears it. -/
theorem hostStep_hazard_cases (s : State) :
    s.hostStep.hazard = s.hazard ∨ (∃ op rest, s.host = op :: rest ∧ IsHazard s op ∧ s.hostStep.hazard = true) ∨
    ∃ rest, s.host = .reset :: rest ∧ s.hostStep.hazard = false := by
  obtain ⟨-, hs⟩ | ⟨op, rest, hhost, hs⟩ := hostStep_cases s
  · exact .inl (congrArg State.hazard hs)
  · rw [hs]
    by_cases hh : IsHazard s op
    · exact .inr (.inl ⟨op, rest, hhost, hh, hostAccess_hazard_of_isHazard (hh.congr rfl rfl)⟩)
    · by_cases hr : op = .reset
      · subst hr
        exact .inr (.inr ⟨rest, hhost, rfl⟩)
      · exact .inl (hostAccess_hazard_of_not_isHazard hr fun hh' => hh (hh'.congr rfl rfl))

theorem engineStep_hazard {w : Word} {s t : State} (h : engineStep w s = .next t) : t.hazard = s.hazard := by
  rw [engineStep_frame h]

/-- A step keeps the mark, or is a hazardous access of the host and sets it, or is the host's reset and clears it. -/
theorem step_hazard_cases {s t : State} (h : step s = .next t) :
    t.hazard = s.hazard ∨ (∃ op rest, s.host = op :: rest ∧ IsHazard s op ∧ t.hazard = true) ∨
    ∃ rest, s.host = .reset :: rest ∧ t.hazard = false := by
  obtain ⟨-, hs⟩ | ⟨w, -, -, hs⟩ | ⟨w, -, -, hs⟩ := step_cases s
  · obtain rfl : s.hostStep = t := by simpa [hs] using h
    exact hostStep_hazard_cases s
  · exact .inl (engineStep_hazard (hs.symm.trans h))
  · obtain rfl : s.hostTurn = t := by simpa [hs] using h
    obtain hk | ⟨op, rest, hhost, hh, hm⟩ | hr := hostStep_hazard_cases { s with delay := s.delay - 1 }
    · exact .inl hk
    · exact .inr (.inl ⟨op, rest, hhost, hh.congr rfl rfl, hm⟩)
    · exact .inr (.inr hr)

/-! ## Reads while a command is pending (R291) -/

/-- The one legal STATUS with BUSY set is that of a command just accepted (10_state.md R25). -/
theorem eq_acceptedStatus_of_busy {st : Status} (hl : statusLegal st = true) (hb : st.busy = true) : st = acceptedStatus := by
  obtain ⟨busy, done, err, ecode⟩ := st
  obtain rfl : busy = true := hb
  obtain ⟨rfl, rfl, rfl, -⟩ : done = false ∧ err = false ∧ ecode = .none ∧ _ := by simpa [statusLegal, and_assoc] using hl
  rfl

theorem statusWord_acceptedStatus : statusWord acceptedStatus = 0x00000001 := by decide

/-- A read of STATUS returns the true STATUS, whether a command is pending or not. -/
theorem hostAccess_read_status (s : State) :
    s.hostAccess (.regRead 0x004 32) = { s with results := s.results ++ [.reg 0x004 (statusWord s.status)] } := by
  calc s.hostAccess (.regRead (regOffset .status) 32)
      = s.record (.reg (regOffset .status) (s.windowRead (regOffset .status))) := by
        simp [State.hostAccess, hostRegRead_of_not_isHazard (not_isHazard_regRead_regOffset s .status)]
    _ = s.record (.reg (regOffset .status) (statusWord s.status)) := by rw [windowRead_regOffset, State.readReg]

/-- A well-formed read of another register while BUSY is of the next free word. -/
theorem hostRegRead_busy {s : State} {off : BitVec 12} (hb : s.status.busy = true) (hne : off ≠ regOffset .status)
    (ha : off.toNat % 4 = 0) : s.hostRegRead off 32 = s.recordFreeWord off := by
  have hnot : ¬ IsHazard s (.regRead off 32) := by simp [IsHazard, ha]
  simp [hostRegRead_of_not_isHazard hnot, hb, hne]

/-- A read of a byte of DMEM while BUSY is of the next free byte. -/
theorem hostMemRead_busy {s : State} {a : Nat} (hb : s.status.busy = true) (ha : a < s.memsize.toNat) :
    s.hostMemRead a = s.recordFreeByte a := by
  rw [hostMemRead_of_not_isHazard (Nat.not_le.2 ha), if_pos hb]

/-! ## The statements -/

/-- Settles O53: a hazardous access is the mark, with a free value's record where it reads, and every step keeps the mark but for a hazard of
the host or its reset. -/
theorem hazardsMarkAndHaveNoEffect : Obligations.HazardsMarkAndHaveNoEffect := by
  refine ⟨fun s off width v => hostRegWrite_of_isHazard, fun s a b => hostMemWrite_of_isHazard,
    fun s off width h => ⟨_, _, hostRegRead_of_isHazard h⟩, fun s a h => ⟨_, _, hostMemRead_of_isHazard h⟩,
    fun s t h hs => ?_, fun s t h ht => ?_, State.coreReset_hazard⟩
  · obtain hk | ⟨-, -, -, -, hm⟩ | ⟨rest, hhost, -⟩ := step_hazard_cases h
    · exact .inl (hk.trans hs)
    · exact .inl hm
    · exact .inr ⟨rest, hhost⟩
  · obtain hk | ⟨op, rest, hhost, hh, -⟩ | ⟨-, -, hm⟩ := step_hazard_cases h
    · exact .inl (hk.symm.trans ht)
    · exact .inr ⟨op, rest, hhost, hh⟩
    · exact absurd (ht.symm.trans hm) nofun

/-- Settles O54: the true STATUS while BUSY is that of the accepted command, any other read draws a free value, and an engine step commits a
completion. -/
theorem readsWhileBusy : Obligations.ReadsWhileBusy := by
  refine ⟨fun s hinv hb => ?_, fun s off hb hne ha => ⟨_, _, hostRegRead_busy hb hne ha⟩,
    fun s a hb ha => ⟨_, _, hostMemRead_busy hb ha⟩, fun s t w h => ?_⟩
  · rw [hostAccess_read_status, eq_acceptedStatus_of_busy hinv.status hb, statusWord_acceptedStatus]
  · obtain ⟨hstatus, -⟩ := engineStep_completes h
    exact ⟨by rw [hstatus]; rfl, by rw [hstatus]; rfl, hostAccess_read_status t⟩

end Sys2Proof.Machine
end

section
/-! SUPPORT. The encoding family, continued (30_encoding.md): one row at most takes a word, what a row builds encodes to the word it was built
from, and the `cmd` statement; then the proofs of the statements of R90 to R100 on the encoder. -/

namespace Sys2Proof.Machine

/-! ## One row for a word -/

/-- A row of the opcode table that matches a word has its OP (30_encoding.md R97). -/
theorem opField_bits_of_rowMatches {r : OpcodeRow} (hr : r ∈ opcodeTable) {w : Word} (h : rowMatches r w = true) :
    opField r.bits = opField w :=
  ((mask_match_iff_fields hr).1 (of_decide_eq_true h)).1.symm

theorem opcodeTable_ops_nodup : (opcodeTable.map fun r => opField r.bits).Nodup := by decide

/-! ## A row's command and its word -/

/-- The index field put back in its place is the word's bits there (30_encoding.md R90). -/
theorem idxField_shifted (w : Word) : (idxField w).setWidth 32 <<< 12 = w &&& 0x0000F000 := by
  ext k hk
  interval_cases k <;> simp [idxField]

/-- The direction bit put back in its place is the word's bit there (30_encoding.md R90). -/
theorem dirField_shifted (w : Word) : (BitVec.ofBool (dirField w)).setWidth 32 <<< 8 = w &&& 0x00000100 := by
  ext k hk
  interval_cases k <;> simp [dirField]

/-- The word of the command a row builds is the row's match with the word's operand bits, those outside the mask (30_encoding.md R96). -/
theorem encode_of_row_builds (w : Word) : ∀ r ∈ opcodeTable, ∀ i, r.build w = some i → encode i = r.bits ||| (w &&& ~~~r.mask) := by
  have haddrk : ∀ i, buildAddrk w = some i → encode i = 0x00000014 ||| (w &&& 0x0000F000) := by
    intro i h
    unfold buildAddrk at h
    split at h
    · cases h; exact congrArg (0x00000014 ||| ·) (idxField_shifted w)
    · cases h
  simpa [opcodeTable, opcodeRowsDes, opcodeRowsAes, encode, idxField_shifted, dirField_shifted] using haddrk

/-- A word that decodes is the word of its command (30_encoding.md R95 to R98). -/
theorem encode_of_decode_ok {w : Word} {i : Instr} (h : decode w = .ok i) : encode i = w := by
  obtain ⟨r, hr, hm, hb⟩ := exists_row_of_decode_ok h
  have hm : w &&& r.mask = r.bits := of_decide_eq_true hm
  calc encode i = (w &&& r.mask) ||| (w &&& ~~~r.mask) := by rw [encode_of_row_builds w r hr i hb, hm]
    _ = w := by rw [← BitVec.and_or_distrib_left, BitVec.or_not_self, BitVec.and_allOnes]

/-- The index of AES_ADDRK that no row takes (30_encoding.md R94). -/
theorem decode_encode_aesAddrk_beyond : ∀ idx : BitVec 4, 10 < idx.toNat → decode (encode (.aesAddrk idx)) = .error .idxOutOfRange := by
  decide

/-! ## The statements -/

/-- Settles O1: each command's word is a closed word of the table, or one for each of the few values of its operand. -/
theorem decodeInvertsEncode : Obligations.DecodeInvertsEncode := by
  intro i hw
  cases i with
  | desRound idx => clear hw; revert idx; decide
  | desBlock decrypt => cases decrypt <;> rfl
  | aesAddrk idx => revert idx; decide
  | _ => rfl

/-- Settles O2: the row that matches the word gives the command's word back, and builds only well-formed commands. -/
theorem encodeInvertsDecode : Obligations.EncodeInvertsDecode := fun _ _ h => ⟨encode_of_decode_ok h, wellFormed_of_decode_ok h⟩

/-- Settles O4: matching rows have the word's OP, and the OPs of the table are all different. -/
theorem atMostOneRowMatches : Obligations.AtMostOneRowMatches := by
  intro w
  have hnodup : ((opcodeTable.filter fun r => rowMatches r w).map fun r => opField r.bits).Nodup :=
    opcodeTable_ops_nodup.sublist ((List.filter_sublist ..).map _)
  have hconst : (opcodeTable.filter fun r => rowMatches r w).map (fun r => opField r.bits)
      = List.replicate (opcodeTable.filter fun r => rowMatches r w).length (opField w) := by
    refine List.map_eq_replicate_iff.2 fun r hr => ?_
    obtain ⟨hr, hm⟩ := List.mem_filter.1 hr
    exact opField_bits_of_rowMatches hr hm
  rwa [hconst, List.nodup_replicate] at hnodup

/-- Settles O5: each word evaluated. -/
theorem tableWordsDecode : Obligations.TableWordsDecode := by
  unfold Obligations.TableWordsDecode
  decide

/-- Settles O33: no row takes such a word, and the command itself reports ILLEGAL_CMD. -/
theorem aesAddrkBeyondTenIsIllegal : Obligations.AesAddrkBeyondTenIsIllegal := by
  intro idx h
  refine ⟨decode_encode_aesAddrk_beyond idx h, fun s => ?_⟩
  rw [exec, execAesAddrk, if_neg (Nat.not_le.2 h)]
  rfl

/-- Settles O60: the statement's one access is the write of the command's word to CMD, which while idle is its acceptance. -/
theorem cmdStatementIssuesItsCommand : Obligations.CmdStatementIssuesItsCommand := by
  refine ⟨fun i hw => by simp [expandStmt, hw], fun i s ops rest hops hhost hp hb => ?_⟩
  have hw : i.wellFormed = true := by
    by_contra hw
    simp [expandStmt, hw] at hops
  obtain rfl : [writeOp .cmd (encode i)] = ops := by simpa [expandStmt, hw] using hops
  refine ⟨({ s with host := rest } : State).accept (encode i), encode i, ?_, rfl, decodeInvertsEncode i hw, rfl, rfl, rfl⟩
  rw [step_of_idle hp, hostStep_cons hhost]
  exact congrArg _ (hostRegWrite_regOffset (s := { s with host := rest }) hb .cmd (encode i))

end Sys2Proof.Machine
end

section
/-! SUPPORT. The registers and the host's window, continued (10_state.md): what a write of one register leaves of the others, the reset values
through the window, STATUS's bits and the byte port; then the proofs of the statements on them. -/

namespace Sys2Proof.Machine

/-! ## Reading a register after a write -/

theorem quadGet_quadSet (q : Quad) (i j : Fin 4) (v : Word) : quadGet (quadSet q i v) j = if j = i then v else quadGet q j := by
  fin_cases i <;> fin_cases j <;> rfl

/-- A writable register reads back what was written, and every other register what it held (10_state.md R23). -/
theorem readReg_writeReg (s : State) {name : RegName} (hw : regWritable name = true) (v : Word) (other : RegName) :
    (s.writeReg name v).readReg other = if other = name then v else s.readReg other := by
  cases name with
  | cmd | status | outLen | memsize | desSkHi | desSkLo | aesRk => simp [regWritable] at hw
  | aesKey i | aesState i => cases other <;> simp [State.writeReg, Regs.hostWrite, State.readReg, quadGet_quadSet]
  | _ => cases other <;> simp [State.writeReg, Regs.hostWrite, State.readReg]

/-- The write of a writable register changes the registers' storage alone. -/
theorem writeReg_frame (s : State) {name : RegName} (hw : regWritable name = true) (v : Word) :
    s.writeReg name v = { s with regs := (s.writeReg name v).regs } := by
  cases name with
  | cmd => simp [regWritable] at hw
  | _ => rfl

/-! ## The window by offset -/

/-- The register at an aligned offset is the one the map puts there (10_state.md R23). -/
theorem regOffset_of_regAt : ∀ off : BitVec 12, off.toNat % 4 = 0 → ∀ name, regAt off = some name → regOffset name = off := by
  have h : ∀ off : BitVec 12, off.toNat % 4 = 0 → (regAt off).all (fun name => regOffset name = off) = true := by decide +kernel
  intro off ha name hname
  simpa [hname] using h off ha

theorem statusWord_reset : statusWord Status.reset = 0x00000000 := by decide

/-- Right after a reset every register but MEMSIZE reads 0 (10_state.md R51). -/
theorem readReg_of_reset {s : State} (hr : s.regs = Regs.reset) (hst : s.status = Status.reset) (name : RegName) :
    s.readReg name = if name = .memsize then s.memsize else 0 := by
  cases name with
  | status => simp [State.readReg, hst, statusWord_reset]
  | _ => simp [State.readReg, hr, Regs.reset]

theorem windowRead_of_reset {s : State} (hr : s.regs = Regs.reset) (hst : s.status = Status.reset) {off : BitVec 12}
    (ha : off.toNat % 4 = 0) : s.windowRead off = if off = 0x034 then s.memsize else 0 := by
  cases hat : regAt off with
  | none =>
    have hne : off ≠ 0x034 := by rintro rfl; cases hat
    simp only [State.windowRead, hat, if_neg hne]
  | some name =>
    obtain rfl := regOffset_of_regAt off ha name hat
    have hiff : regOffset name = 0x034 ↔ name = .memsize :=
      ⟨fun h => Option.some.inj ((regAt_regOffset name).symm.trans (congrArg regAt h)), fun h => congrArg regOffset h⟩
    simp only [windowRead_regOffset, readReg_of_reset hr hst, hiff]

/-! ## STATUS's bits -/

/-- BUSY, DONE, ERR and ECODE in their places (10_state.md R25). -/
theorem statusWord_fields (st : Status) :
    (statusWord st).getLsbD 0 = st.busy ∧ (statusWord st).getLsbD 1 = st.done ∧ (statusWord st).getLsbD 2 = st.err
      ∧ (statusWord st).extractLsb' 8 8 = ecodeByte st.ecode := by
  obtain ⟨busy, done, err, ecode⟩ := st
  revert busy done err
  cases ecode <;> decide

/-! ## The statements -/

/-- Settles O48: an idle read is no hazard and not of a free value, and a write is the register's own, which leaves every other register. -/
theorem writableRegistersReadBack : Obligations.WritableRegistersReadBack := by
  intro s hb
  refine ⟨fun off ha => ?_, fun name v hw => ⟨s.writeReg name v, hostRegWrite_regOffset hb name v, ?_, fun other hne => ?_,
    writeReg_frame s hw v⟩⟩
  · have hnot : ¬ IsHazard s (.regRead off 32) := by simp [IsHazard, ha]
    simp [State.hostAccess, hostRegRead_of_not_isHazard hnot, hb, State.record]
  · rw [windowRead_regOffset, readReg_writeReg s hw, if_pos rfl]
  · rw [windowRead_regOffset, windowRead_regOffset, readReg_writeReg s hw, if_neg hne]

/-- Settles O51: each offset is that of the named register, and the two words of a subkey are its halves. -/
theorem keyFilesAreReadableAtTheirOffsets : Obligations.KeyFilesAreReadableAtTheirOffsets := by
  refine fun s => ⟨fun i => ?_, fun j => windowRead_regOffset s (.aesRk j)⟩
  have hhi : s.windowRead (BitVec.ofNat 12 (0x080 + 8 * i.val)) = (s.regs.desSk[i].extractLsb' 32 16).setWidth 32 :=
    windowRead_regOffset s (.desSkHi i)
  have hlo : s.windowRead (BitVec.ofNat 12 (0x084 + 8 * i.val)) = s.regs.desSk[i].extractLsb' 0 32 :=
    windowRead_regOffset s (.desSkLo i)
  rw [hhi, hlo, BitVec.setWidth_setWidth_of_le _ (by decide), BitVec.setWidth_eq]
  exact BitVec.extractLsb'_append_extractLsb' (w := 16) (len := 32)

/-- Settles O52: the fields of the word that the window shows at STATUS's offset. -/
theorem statusWordFields : Obligations.StatusWordFields := by
  intro s
  have hv : s.windowRead 0x004 = statusWord s.status := windowRead_regOffset s .status
  obtain ⟨hbusy, hdone, herr, hecode⟩ := statusWord_fields s.status
  simp only [hv]
  exact ⟨hbusy, hdone, herr, hecode, statusWord_reserved s.status⟩

/-- Settles O55: through the window a reset machine shows its reset values, and no byte of DMEM is written. -/
theorem resetSetsEveryRegister : Obligations.ResetSetsEveryRegister :=
  ⟨fun s _ ha => windowRead_of_reset (s := s.coreReset) rfl rfl ha, fun _ => ⟨rfl, rfl, fun _ => rfl⟩,
    fun _ ha => windowRead_of_reset (s := State.reset) rfl rfl ha, rfl, rfl⟩

/-- Settles O56: the host's turn comes before the engine's step, and its access is the reset. -/
theorem resetAbandonsThePendingCommand : Obligations.ResetAbandonsThePendingCommand := by
  intro s w rest hp hd hhost
  refine ⟨({ s with delay := s.delay - 1, host := rest } : State).coreReset, ?_, rfl, statusWord_reset, rfl, rfl, rfl, step_of_idle rfl⟩
  rw [step_of_delay_ne_zero hp hd, hostTurn_cons hhost]
  rfl

/-- Settles O57: an idle access inside DMEM is no hazard, and a written byte stands apart from every other. -/
theorem hostBytePortStoresAndReads : Obligations.HostBytePortStoresAndReads := by
  intro s a b hb ha
  have hwrite : ¬ IsHazard s (.memWrite a b) := by simp [IsHazard, hb, ha]
  have hread : ¬ IsHazard s (.memRead a) := by simp [IsHazard, ha]
  refine ⟨⟨s.memWrite a [b], hostMemWrite_of_not_isHazard hwrite, rfl, ?_, fun x hx => ?_⟩, ?_⟩
  · exact readByte_memWrite_inside s a 0 [b] (by simp)
  · exact readByte_memWrite_outside s a x [b] (by simp; omega)
  · simp [State.hostAccess, hostMemRead_of_not_isHazard hread, hb, State.record]

end Sys2Proof.Machine
end

section
/-! SUPPORT. The rules over all commands and all steps (60_exceptions.md, 70_reset_and_hazards.md): which registers a command writes, what an
access of the host replaces, a pending command under the host's accesses and a `wait`; then the proofs of the statements on them. -/

namespace Sys2Proof.Machine

/-! ## The registers a command writes -/

/-- AES_ADDRK xors its round key in, or reports ILLEGAL_CMD (30_encoding.md R94; 46_aes_block.md R219). -/
theorem exec_aesAddrk_cases {idx : BitVec 4} {s t : State} (h : exec (.aesAddrk idx) s = .next t) :
    t = (s.onAesState fun b => addRoundKey b s.regs.aesRk idx.toNat).completeOk ∨ t = s.raise .illegalCmd := by
  rw [exec, execAesAddrk] at h
  split at h
  · cases h; exact .inl rfl
  · cases h; exact .inr rfl

/-- A register command writes key-bearing registers, STATUS and the phase, and nothing else (10_state.md R46). -/
theorem exec_register_frame {i : Instr} {s t : State} (hb : ¬ IsBufferCommand i) (h : exec i s = .next t) :
    t = { s with regs := t.regs, status := t.status, phase := .idle } ∧
    t.regs = { s.regs with
      desKeyHi := t.regs.desKeyHi, desKeyLo := t.regs.desKeyLo, desBlkHi := t.regs.desBlkHi, desBlkLo := t.regs.desBlkLo,
      aesKey := t.regs.aesKey, aesState := t.regs.aesState, desSk := t.regs.desSk, aesRk := t.regs.aesRk } := by
  cases i with
  | desEcbDec | aesCbcEnc | pbkdf2 => simp at hb
  | aesAddrk idx => obtain rfl | rfl := exec_aesAddrk_cases h <;> exact ⟨rfl, rfl⟩
  | _ => cases h; exact ⟨rfl, rfl⟩

/-- A buffer command's outcome committed writes no register but OUT_LEN, and the other registers reach neither OUT_LEN, DMEM nor STATUS
(10_state.md R29, R46). -/
theorem commit_bufferCommand_regs (s : State) (r : Regs) (hr : r.outLen = s.regs.outLen) (checks : List (Bool × ECode)) (dst : Nat)
    (out : Except ECode Bytes) {t t' : State} (ht : s.commit (s.bufferCommand checks dst out) = t)
    (ht' : (s.setRegs r).commit ((s.setRegs r).bufferCommand checks dst out) = t') :
    t.regs = { s.regs with outLen := t.regs.outLen } ∧ t'.regs = { r with outLen := t'.regs.outLen }
      ∧ t'.regs.outLen = t.regs.outLen ∧ t'.dmem = t.dmem ∧ t'.status = t.status := by
  subst ht ht'
  unfold State.bufferCommand
  cases firstError checks with
  | some e => exact ⟨rfl, rfl, hr, rfl, rfl⟩
  | none =>
    cases out with
    | error e => exact ⟨rfl, rfl, hr, rfl, rfl⟩
    | ok bytes => exact ⟨rfl, rfl, rfl, rfl, rfl⟩

/-- A buffer command writes no register but OUT_LEN (10_state.md R29, R46). -/
theorem exec_buffer_regs {i : Instr} {s t : State} (hb : IsBufferCommand i) (h : exec i s = .next t) :
    t.regs = { s.regs with outLen := t.regs.outLen } := by
  obtain rfl | rfl | rfl := hb <;> cases h <;> exact (commit_bufferCommand_regs s s.regs rfl _ _ _ rfl rfl).1

/-- DES_KS and CLEAR alone write the subkeys, AES_KEYEXP and CLEAR alone the round keys (41_des_key_schedule.md R142,
45_aes_key_expansion.md R204, 48_control.md R241). -/
theorem exec_keyFiles {i : Instr} {s t : State} (h : exec i s = .next t) :
    (t.regs.desSk = s.regs.desSk ∨ i = .desKs ∨ i = .clear) ∧ (t.regs.aesRk = s.regs.aesRk ∨ i = .aesKeyexp ∨ i = .clear) := by
  cases i with
  | desKs => cases h; exact ⟨.inr (.inl rfl), .inl rfl⟩
  | aesKeyexp => cases h; exact ⟨.inl rfl, .inr (.inl rfl)⟩
  | clear => exact ⟨.inr (.inr rfl), .inr (.inr rfl)⟩
  | desEcbDec | aesCbcEnc | pbkdf2 => rw [exec_buffer_regs (by decide) h]; exact ⟨.inl rfl, .inl rfl⟩
  | aesAddrk idx => obtain rfl | rfl := exec_aesAddrk_cases h <;> exact ⟨.inl rfl, .inl rfl⟩
  | _ => cases h; exact ⟨.inl rfl, .inl rfl⟩

theorem engineStep_keyFiles {w : Word} {s t : State} (h : engineStep w s = .next t) :
    (t.regs.desSk = s.regs.desSk ∨ decode w = .ok .desKs ∨ decode w = .ok .clear)
    ∧ (t.regs.aesRk = s.regs.aesRk ∨ decode w = .ok .aesKeyexp ∨ decode w = .ok .clear) := by
  obtain ⟨i, hd, hi⟩ | ⟨r, -, hr⟩ := engineStep_cases w s
  · simpa only [hd, Except.ok.injEq] using exec_keyFiles (hi.symm.trans h)
  · cases hr.symm.trans h; exact ⟨.inl rfl, .inl rfl⟩

/-! ## What a host access replaces -/

/-- A register read replaces nothing but the hazard mark, the results and the count of draws. -/
theorem hostRegRead_frame (s : State) (off : BitVec 12) (width : Nat) :
    ∃ hz d res, s.hostRegRead off width = { s with hazard := hz, draws := d, results := res } := by
  unfold State.hostRegRead
  split
  · exact ⟨_, _, _, rfl⟩
  · split
    · exact ⟨_, _, _, rfl⟩
    · exact ⟨_, _, _, rfl⟩

theorem hostMemRead_frame (s : State) (a : Nat) :
    ∃ hz d res, s.hostMemRead a = { s with hazard := hz, draws := d, results := res } := by
  unfold State.hostMemRead
  split
  · exact ⟨_, _, _, rfl⟩
  · split
    · exact ⟨_, _, _, rfl⟩
    · exact ⟨_, _, _, rfl⟩

/-- A `wait` records STATUS, and stays the host's next access while BUSY (30_encoding.md R100). -/
theorem hostWait_eq (s : State) :
    s.hostWait = { s with
      results := s.results ++ [.reg 0x004 (statusWord s.status)]
      host := if s.status.busy then .wait :: s.host else s.host } := by
  have hread : s.hostRegRead (regOffset .status) 32 = { s with results := s.results ++ [.reg 0x004 (statusWord s.status)] } :=
    hostAccess_read_status s
  obtain ⟨hbusy, -⟩ := statusWord_fields s.status
  unfold State.hostWait
  rw [hread, hbusy]
  split <;> rfl

/-- The registers' storage of the key files is out of the host's reach: both are read-only (10_state.md R42, R43). -/
theorem hostWrite_keyFiles (r : Regs) (name : RegName) (v : Word) :
    (r.hostWrite name v).desSk = r.desSk ∧ (r.hostWrite name v).aesRk = r.aesRk := by
  cases name <;> exact ⟨rfl, rfl⟩

theorem writeReg_keyFiles (s : State) (name : RegName) (v : Word) :
    (s.writeReg name v).regs.desSk = s.regs.desSk ∧ (s.writeReg name v).regs.aesRk = s.regs.aesRk := by
  cases name with
  | cmd => exact ⟨rfl, rfl⟩
  | _ => exact hostWrite_keyFiles s.regs _ v

/-- No access of the host but a reset changes a key file. -/
theorem hostAccess_keyFiles (s : State) {op : HostOp} (hr : op ≠ .reset) :
    (s.hostAccess op).regs.desSk = s.regs.desSk ∧ (s.hostAccess op).regs.aesRk = s.regs.aesRk := by
  cases op with
  | regWrite off width v =>
    simp only [State.hostAccess, State.hostRegWrite]
    split
    · exact ⟨rfl, rfl⟩
    · split
      · exact writeReg_keyFiles s _ v
      · exact ⟨rfl, rfl⟩
  | regRead off width => obtain ⟨_, _, _, h⟩ := hostRegRead_frame s off width; simp [State.hostAccess, h]
  | memWrite a b => simp only [State.hostAccess, State.hostMemWrite]; split <;> exact ⟨rfl, rfl⟩
  | memRead a => obtain ⟨_, _, _, h⟩ := hostMemRead_frame s a; simp [State.hostAccess, h]
  | wait => simp [State.hostAccess, hostWait_eq]
  | reset => exact absurd rfl hr

/-- A turn of the host keeps the key files, or is a reset. -/
theorem hostStep_keyFiles (s : State) :
    (s.hostStep.regs.desSk = s.regs.desSk ∧ s.hostStep.regs.aesRk = s.regs.aesRk) ∨ ∃ rest, s.host = .reset :: rest := by
  obtain ⟨-, h⟩ | ⟨op, rest, hhost, h⟩ := hostStep_cases s
  · exact .inl (by rw [h]; exact ⟨rfl, rfl⟩)
  · by_cases hr : op = .reset
    · exact .inr ⟨rest, hr ▸ hhost⟩
    · rw [h]
      exact .inl (hostAccess_keyFiles { s with host := rest } hr)

/-! ## A pending command under the host's accesses -/

/-- While BUSY an access other than reset replaces nothing but the hazard mark, the results, the count of draws and, for `wait`, the host's
list (70_reset_and_hazards.md R290, R291). -/
theorem hostAccess_busy {s : State} (hb : s.status.busy = true) {op : HostOp} (hr : op ≠ .reset) :
    ∃ hz d res host, s.hostAccess op = { s with hazard := hz, draws := d, results := res, host := host }
      ∧ (host = s.host ∨ host = op :: s.host) := by
  cases op with
  | regWrite off width v => exact ⟨_, _, _, _, hostRegWrite_busy hb off width v, .inl rfl⟩
  | regRead off width =>
    obtain ⟨hz, d, res, h⟩ := hostRegRead_frame s off width
    exact ⟨hz, d, res, _, h, .inl rfl⟩
  | memWrite a b => exact ⟨_, _, _, _, hostMemWrite_of_isHazard (.inl hb), .inl rfl⟩
  | memRead a =>
    obtain ⟨hz, d, res, h⟩ := hostMemRead_frame s a
    exact ⟨hz, d, res, _, h, .inl rfl⟩
  | wait => exact ⟨_, _, _, _, hostWait_eq s, .inr (by rw [hb]; rfl)⟩
  | reset => exact absurd rfl hr

/-- A turn of a host that has no reset to make, while BUSY: the delay counts down, and the registers, DMEM, STATUS and the phase stay. -/
theorem hostTurn_busy {s : State} (hb : s.status.busy = true) (hr : HostOp.reset ∉ s.host) :
    ∃ hz d res host, s.hostTurn = { s with delay := s.delay - 1, hazard := hz, draws := d, results := res, host := host }
      ∧ HostOp.reset ∉ host := by
  cases hhost : s.host with
  | nil => exact ⟨s.hazard, s.draws, s.results, [], by simp [State.hostTurn, State.hostStep, hhost], List.not_mem_nil⟩
  | cons op rest =>
    obtain ⟨hop, hrest⟩ := List.ne_and_not_mem_of_not_mem_cons (hhost ▸ hr)
    obtain ⟨hz, d, res, host, h, hcases⟩ := hostAccess_busy (s := { s with delay := s.delay - 1, host := rest }) hb hop.symm
    refine ⟨hz, d, res, host, (hostTurn_cons hhost).trans h, ?_⟩
    obtain rfl | rfl := hcases
    · exact hrest
    · exact hhost ▸ hr

/-- The host's turns of the remaining delay leave the pending command, the registers, DMEM and STATUS as they are. -/
theorem runSteps_delay {s : State} {w : Word} (hp : s.phase = .pending w) (hb : s.status.busy = true) (hr : HostOp.reset ∉ s.host) :
    ∃ hz d res host, runSteps s.delay s = .next { s with delay := 0, hazard := hz, draws := d, results := res, host := host } := by
  induction hd : s.delay generalizing s with
  | zero => exact ⟨s.hazard, s.draws, s.results, s.host, by rw [runSteps, ← hd]⟩
  | succ n ih =>
    obtain ⟨hz, d, res, host, hturn, hr'⟩ := hostTurn_busy hb hr
    obtain ⟨hz', d', res', host', hrun⟩ := ih (s := s.hostTurn) (by rw [hturn]; exact hp) (by rw [hturn]; exact hb)
      (by rw [hturn]; exact hr') (by rw [hturn, hd]; rfl)
    refine ⟨hz', d', res', host', ?_⟩
    rw [runSteps, step_of_delay_ne_zero hp (by omega)]
    simpa [hturn] using hrun

/-! ## Runs -/

theorem runSteps_succ {s t : State} (h : step s = .next t) (k : Nat) : runSteps (k + 1) s = runSteps k t := by
  rw [runSteps, h]

/-- Two runs, one after the other. -/
theorem runSteps_add {s t : State} {m : Nat} (h : runSteps m s = .next t) (n : Nat) : runSteps (m + n) s = runSteps n t := by
  induction m generalizing s with
  | zero => cases h; rw [Nat.zero_add]
  | succ m ih =>
    rw [Nat.succ_add]
    rw [runSteps] at h ⊢
    cases hs : step s with
    | next u => rw [hs] at h; exact ih h
    | fault r => rw [hs] at h; cases h
    | refused r => rw [hs] at h; cases h

/-- The host's turns of the remaining delay, spent on a `wait`: it stays the next access (30_encoding.md R100). -/
theorem runSteps_delay_wait {s : State} {w : Word} {rest : List HostOp} (hp : s.phase = .pending w) (hb : s.status.busy = true)
    (hhost : s.host = .wait :: rest) : ∃ res, runSteps s.delay s = .next { s with delay := 0, results := res } := by
  induction hd : s.delay generalizing s with
  | zero => exact ⟨s.results, by rw [runSteps, ← hd]⟩
  | succ n ih =>
    have hturn : s.hostTurn = { s with delay := n, results := s.results ++ [.reg 0x004 (statusWord s.status)] } := by
      rw [hostTurn_cons hhost, hd, State.hostAccess, hostWait_eq]
      simp [hb, hhost]
    obtain ⟨res, hrun⟩ := ih (s := s.hostTurn) (by rw [hturn]; exact hp) (by rw [hturn]; exact hb) (by rw [hturn]; exact hhost)
      (by rw [hturn])
    refine ⟨res, ?_⟩
    rw [runSteps_succ (step_of_delay_ne_zero hp (by omega)), hrun, hturn]

/-! ## The statements -/

/-- Settles O6: the step by phase and delay, with the word that `withFetchWord` makes pending. -/
theorem stepRunsTheDecodedCommand : Obligations.StepRunsTheDecodedCommand := by
  refine ⟨fun s w i hp hd hw => (step_of_delay_zero hp hd).trans (engineStep_of_ok hw s), fun s w hp hd => step_of_delay_ne_zero hp hd,
    fun s w i hw => ?_⟩
  have hdec : decode (tableWord 32 w) = .ok i := by
    unfold decodeTableWord at hw
    split at hw
    · cases hd : decode (tableWord 32 w) with
      | ok j => rw [hd] at hw; cases hw; rfl
      | error r => rw [hd] at hw; cases hw
    · cases hw
  exact (step_of_delay_zero rfl rfl).trans (engineStep_of_ok hdec _)

/-- Settles O42: neither the checks nor the bytes of a buffer command read a key-bearing register, and its commit writes OUT_LEN alone. -/
theorem bufferCommandsUseNoKeyRegister : Obligations.BufferCommandsUseNoKeyRegister := by
  intro i s kh kl bh bl key st sk rk hb
  have hregs := commit_bufferCommand_regs s
    { s.regs with desKeyHi := kh, desKeyLo := kl, desBlkHi := bh, desBlkLo := bl, aesKey := key, aesState := st, desSk := sk, aesRk := rk } rfl
  obtain rfl | rfl | rfl := hb <;> exact ⟨_, _, rfl, rfl, hregs _ _ _ rfl rfl⟩

/-- Settles O43: a register command's next state replaces key-bearing registers, STATUS and the phase. -/
theorem registerCommandsLeaveDmemAndBufferRegisters : Obligations.RegisterCommandsLeaveDmemAndBufferRegisters := by
  intro i s hb
  obtain ⟨t, h⟩ := exec_next i s
  obtain ⟨hframe, hregs⟩ := exec_register_frame hb h
  refine ⟨t, h, hframe, readByte_congr (by rw [hframe]) (by rw [hframe]), ?_⟩
  have hmemsize : t.memsize = s.memsize := by rw [hframe]
  simp only [List.forall_mem_cons, List.not_mem_nil, false_imp_iff, implies_true, and_true, State.readReg]
  rw [hregs, hmemsize]
  simp

/-- Settles O44: of the engine's steps only those of the two commands write the file, and of the host's turns only a reset. -/
theorem onlyTheirCommandsChangeTheKeyFiles : Obligations.OnlyTheirCommandsChangeTheKeyFiles := by
  intro s t h
  obtain ⟨-, hs⟩ | ⟨w, hp, -, hs⟩ | ⟨w, -, -, hs⟩ := step_cases s
  · obtain rfl : s.hostStep = t := by simpa [hs] using h
    obtain ⟨hsk, hrk⟩ | hreset := hostStep_keyFiles s
    · exact ⟨fun hne => absurd hsk hne, fun hne => absurd hrk hne⟩
    · exact ⟨fun _ => .inr hreset, fun _ => .inr hreset⟩
  · obtain ⟨hsk, hrk⟩ := engineStep_keyFiles (hs.symm.trans h)
    exact ⟨fun hne => .inl ⟨w, hp, hsk.resolve_left hne⟩, fun hne => .inl ⟨w, hp, hrk.resolve_left hne⟩⟩
  · obtain rfl : s.hostTurn = t := by simpa [hs] using h
    obtain ⟨hsk, hrk⟩ | hreset := hostStep_keyFiles { s with delay := s.delay - 1 }
    · exact ⟨fun hne => absurd hsk hne, fun hne => absurd hrk hne⟩
    · exact ⟨fun _ => .inr hreset, fun _ => .inr hreset⟩

/-- Settles O58: the remaining delay is that many turns of the host, none of which reaches what the command reads. -/
theorem pendingCommandRunsUndisturbed : Obligations.PendingCommandRunsUndisturbed := by
  intro s w hinv hp hr
  have hb : s.status.busy = true := by rw [hinv.busy, hp]; rfl
  obtain ⟨hz, d, res, host, hrun⟩ := runSteps_delay hp hb hr
  exact ⟨_, hrun, hp, rfl, rfl, rfl, rfl, rfl, step_of_delay_zero hp rfl⟩

/-- Settles O59: the `wait` polls for the remaining delay, the engine's step clears BUSY, and the next poll ends it. -/
theorem waitEndsAfterTheCommand : Obligations.WaitEndsAfterTheCommand := by
  intro s w rest hinv hp hhost
  have hb : s.status.busy = true := by rw [hinv.busy, hp]; rfl
  obtain ⟨res, hrun⟩ := runSteps_delay_wait hp hb hhost
  obtain ⟨t, ht⟩ := engineStep_next w { s with delay := 0, results := res }
  have hengine : step { s with delay := 0, results := res } = .next t :=
    (step_of_delay_zero (s := { s with delay := 0, results := res }) hp rfl).trans ht
  have hdone : t.status.busy = false := by rw [(engineStep_completes ht).1]; rfl
  have hframe := engineStep_frame ht
  have hidle : t.phase = .idle := by rw [hframe]
  have hwait : t.host = .wait :: rest := by rw [hframe]; exact hhost
  have hlast : step t = .next { t with results := t.results ++ [.reg 0x004 (statusWord t.status)], host := rest } := by
    rw [step_of_idle hidle, hostStep_cons hwait, State.hostAccess, hostWait_eq]
    simp [hdone]
  refine ⟨{ t with results := t.results ++ [.reg 0x004 (statusWord t.status)], host := rest }, statusWord t.status,
    ?_, rfl, hidle, List.getLast?_concat .., ?_⟩
  · rw [runSteps_add hrun, runSteps_succ hengine, runSteps_succ hlast, runSteps]
  · rw [(statusWord_fields t.status).1, hdone]

end Sys2Proof.Machine
end

section
/-! SUPPORT. The DES family (40_des_primitives.md, 41_des_key_schedule.md, 42_des_feistel.md): permutations and their inverses, the subkeys in
closed form, the Feistel rounds and their inverse; then the proofs of the statements on the register commands of DES. -/

namespace Sys2Proof.Machine

/-! ## Permutations -/

/-- A permutation sees its input at its table's positions only (40_des_primitives.md R112). -/
theorem permute_congr {m n : Nat} {x y : BitVec n} {table : List Nat} (h : ∀ p ∈ table, tablePos x p = tablePos y p) :
    permute m x table = permute m y table := by
  rw [permute, permute, List.map_congr_left h]

/-- Two tables undo each other where each entry of the second names the place of its own position in the first. -/
theorem permute_permute {n : Nat} {table inv : List Nat} (ht : table.length = n) (hi : inv.length = n)
    (h : ∀ i < n, n - inv.getD (n - 1 - i) 0 < n ∧ n - table.getD (n - 1 - (n - inv.getD (n - 1 - i) 0)) 0 = i) (x : BitVec n) :
    permute n (permute n x table) inv = x := by
  refine BitVec.eq_of_getLsbD_eq fun i hlt => ?_
  obtain ⟨hpos, hback⟩ := h i hlt
  rw [permute_getLsbD _ _ hi i hlt, tablePos, permute_getLsbD _ _ ht _ hpos, tablePos, hback]

theorem permute_FP_IP (x : BitVec 64) : permute 64 (permute 64 x tableIP) tableFP = x :=
  permute_permute (n := 64) rfl rfl (by decide +kernel) x

theorem permute_IP_FP (x : BitVec 64) : permute 64 (permute 64 x tableFP) tableIP = x :=
  permute_permute (n := 64) rfl rfl (by decide +kernel) x

/-- No entry of PC-1 is a multiple of 8, where the parity bits stand (40_des_primitives.md R117, 90_conflicts.md C1). -/
theorem parity_notMem_PC1 : ∀ p ∈ tablePC1, (0x0101010101010101 : BitVec 64).getLsbD (64 - p) = false := by decide

/-! ## The key schedule -/

/-- Two rotations are one by the sum. -/
theorem rotateLeft_rotateLeft {n : Nat} (x : BitVec n) (a b : Nat) : (x.rotateLeft a).rotateLeft b = x.rotateLeft (a + b) := by
  refine BitVec.eq_of_getMsbD_eq fun i hi => ?_
  have hmod : (b + i) % n < n := Nat.mod_lt _ (by omega)
  simp [BitVec.getMsbD_rotateLeft, hi, hmod, Nat.add_assoc]

/-- Subkey `i` of the rounds is PC-2 of both halves turned by the shifts so far (41_des_key_schedule.md R140). -/
theorem keyRounds_getElem (ss : List Nat) (c d : BitVec 28) (i : Nat) (h : i < (keyRounds ss c d).length) :
    (keyRounds ss c d)[i] =
      permute 48 (c.rotateLeft (ss.take (i + 1)).sum ++ d.rotateLeft (ss.take (i + 1)).sum) tablePC2 := by
  induction ss generalizing c d i with
  | nil => simp [keyRounds] at h
  | cons shift rest ih =>
    cases i with
    | zero => simp [keyRounds]
    | succ i => simp [keyRounds, ih, rotateLeft_rotateLeft]

theorem keySchedule_getElem (key : BitVec 64) (i : Fin 16) :
    (keySchedule key)[i] =
      permute 48 (((permute 56 key tablePC1).extractLsb' 28 28).rotateLeft (shifts.take (i.val + 1)).sum
        ++ ((permute 56 key tablePC1).extractLsb' 0 28).rotateLeft (shifts.take (i.val + 1)).sum) tablePC2 :=
  keyRounds_getElem shifts _ _ i.val _

/-- The sixteen shifts are one full turn of 28 (41_des_key_schedule.md R141). -/
theorem rotateLeft_all_shifts (x : BitVec 28) : x.rotateLeft (shifts.take 16).sum = x := by
  have hsum : (shifts.take 16).sum = 28 := by decide
  rw [hsum, ← BitVec.rotateLeft_mod_eq_rotateLeft]
  ext i hi
  simp [BitVec.getElem_rotateLeft]

/-! ## The Feistel rounds -/

/-- The rounds of a list of subkeys, in order (42_des_feistel.md R151). -/
def feistelRounds (ks : List (BitVec 48)) (p : BitVec 32 × BitVec 32) : BitVec 32 × BitVec 32 :=
  ks.foldl (fun p k => desRound p.1 p.2 k) p

theorem feistelRounds_cons (k : BitVec 48) (ks : List (BitVec 48)) (p : BitVec 32 × BitVec 32) :
    feistelRounds (k :: ks) p = feistelRounds ks (desRound p.1 p.2 k) := rfl

theorem feistelRounds_concat (ks : List (BitVec 48)) (k : BitVec 48) (p : BitVec 32 × BitVec 32) :
    feistelRounds (ks ++ [k]) p = desRound (feistelRounds ks p).1 (feistelRounds ks p).2 k := List.foldl_concat ..

/-- A round on swapped halves undoes the round (42_des_feistel.md R150). -/
theorem desRound_swap (p : BitVec 32 × BitVec 32) (k : BitVec 48) :
    desRound (desRound p.1 p.2 k).2 (desRound p.1 p.2 k).1 k = p.swap := by
  simp [desRound, Prod.swap]

/-- The rounds with the subkeys reversed, on swapped halves, undo the rounds (42_des_feistel.md R151). -/
theorem feistelRounds_reverse (ks : List (BitVec 48)) (p : BitVec 32 × BitVec 32) :
    feistelRounds ks.reverse (feistelRounds ks p).swap = p.swap := by
  induction ks generalizing p with
  | nil => rfl
  | cons k ks ih =>
    rw [feistelRounds_cons, List.reverse_cons, feistelRounds_concat, ih]
    exact desRound_swap p k

theorem subkeyOrder_not (sk : Vector (BitVec 48) 16) (decrypt : Bool) : subkeyOrder sk (!decrypt) = (subkeyOrder sk decrypt).reverse := by
  cases decrypt <;> simp [subkeyOrder]

@[simp] theorem subkeyOrder_length (sk : Vector (BitVec 48) 16) (decrypt : Bool) : (subkeyOrder sk decrypt).length = 16 := by
  cases decrypt <;> simp [subkeyOrder]

/-- The subkey of round `i` in a direction's order (42_des_feistel.md R151, 30_encoding.md R93). -/
theorem subkeyOrder_getElem (sk : Vector (BitVec 48) 16) (decrypt : Bool) (i : Nat) (h : i < (subkeyOrder sk decrypt).length) :
    (subkeyOrder sk decrypt)[i] = sk.toList.getD (if decrypt then 15 - i else i) 0 := by
  have hi : i < 16 := by simpa using h
  cases decrypt with
  | false => simp [subkeyOrder, hi]
  | true => simp [subkeyOrder, show 15 - i < 16 by omega]

/-! ## The two halves of a block -/

/-- A block's halves, the high one first (42_des_feistel.md R151). -/
def blockHalves (x : BitVec 64) : BitVec 32 × BitVec 32 := (x.extractLsb' 32 32, x.extractLsb' 0 32)

/-- The block of two halves. -/
def joinHalves (p : BitVec 32 × BitVec 32) : BitVec 64 := p.1 ++ p.2

@[simp] theorem blockHalves_append (hi lo : BitVec 32) : blockHalves (hi ++ lo) = (hi, lo) := by
  have hhigh : (hi ++ lo).extractLsb' 32 32 = hi := BitVec.extractLsb'_append_of_eq (k := 1) rfl
  have hlow : (hi ++ lo).extractLsb' 0 32 = lo :=
    (BitVec.extractLsb'_append_eq_of_add_le (by rfl)).trans BitVec.extractLsb'_eq_self
  rw [blockHalves, hhigh, hlow]

@[simp] theorem blockHalves_joinHalves (p : BitVec 32 × BitVec 32) : blockHalves (joinHalves p) = p := blockHalves_append p.1 p.2

@[simp] theorem joinHalves_blockHalves (x : BitVec 64) : joinHalves (blockHalves x) = x :=
  BitVec.extractLsb'_append_extractLsb' (w := 32) (len := 32)

/-- The block cipher is the rounds between IP and FP, the halves swapped after the last (42_des_feistel.md R151). -/
theorem desBlock_eq (block : BitVec 64) (sk : Vector (BitVec 48) 16) (decrypt : Bool) :
    desBlock block sk decrypt =
      permute 64 (joinHalves (feistelRounds (subkeyOrder sk decrypt) (blockHalves (permute 64 block tableIP))).swap) tableFP := rfl

/-- The block cipher in one direction and then in the other is the identity, whatever the subkeys (42_des_feistel.md R151, R154). -/
theorem desBlock_desBlock (block : BitVec 64) (sk : Vector (BitVec 48) 16) (decrypt : Bool) :
    desBlock (desBlock block sk decrypt) sk (!decrypt) = block := by
  rw [desBlock_eq (desBlock block sk decrypt), desBlock_eq block, permute_IP_FP, blockHalves_joinHalves, subkeyOrder_not,
    feistelRounds_reverse, Prod.swap_swap, joinHalves_blockHalves, permute_FP_IP]

/-! ## The commands -/

theorem exec_desKs (s : State) : exec .desKs s = .next (s.setRegs (s.regs.setDesSk (keySchedule s.regs.desKey))).completeOk := rfl

/-- The machine after a completed command that wrote the two halves to DES_BLK_HI and DES_BLK_LO (10_state.md R39). -/
def State.withDesHalves (s : State) (p : BitVec 32 × BitVec 32) : State := (s.setRegs (s.regs.setDesBlk p.1 p.2)).completeOk

@[simp] theorem State.withDesHalves_desSk (s : State) (p : BitVec 32 × BitVec 32) : (s.withDesHalves p).regs.desSk = s.regs.desSk := rfl
@[simp] theorem State.withDesHalves_desBlk (s : State) (p : BitVec 32 × BitVec 32) : (s.withDesHalves p).regs.desBlk = joinHalves p := rfl

/-- Only the last halves written remain. -/
theorem State.withDesHalves_withDesHalves (s : State) (p q : BitVec 32 × BitVec 32) :
    (s.withDesHalves p).withDesHalves q = s.withDesHalves q := rfl

/-- Writing back the registers' own halves only completes. -/
theorem State.withDesHalves_desBlk_self (s : State) : s.withDesHalves (blockHalves s.regs.desBlk) = s.completeOk := by
  rw [Regs.desBlk, blockHalves_append]
  rfl

/-- DES_ROUND is one round on the halves in the two registers (42_des_feistel.md R152). -/
theorem exec_desRound (idx : BitVec 4) (s : State) :
    exec (.desRound idx) s = .next (s.withDesHalves (desRound s.regs.desBlkHi s.regs.desBlkLo (s.regs.subkey idx))) := rfl

/-- DES_BLOCK writes the halves of the block cipher's result (42_des_feistel.md R153). -/
theorem exec_desBlock (decrypt : Bool) (s : State) :
    exec (.desBlock decrypt) s = .next (s.withDesHalves (blockHalves (desBlock s.regs.desBlk s.regs.desSk decrypt))) := rfl

/-- DES_ROUND commands one after another are the rounds with their subkeys (42_des_feistel.md R152). -/
theorem execAll_desRounds {idxs : List (BitVec 4)} (hne : idxs ≠ []) (s : State) :
    execAll (idxs.map .desRound) s =
      .next (s.withDesHalves (feistelRounds (idxs.map s.regs.subkey) (s.regs.desBlkHi, s.regs.desBlkLo))) := by
  induction idxs generalizing s with
  | nil => exact absurd rfl hne
  | cons idx rest ih =>
    rw [List.map_cons, execAll, exec_desRound]
    cases rest with
    | nil => rfl
    | cons next rest => exact ih (List.cons_ne_nil next rest) _

/-- The indices of `desRoundSteps` select the direction's subkeys in its order (42_des_feistel.md R151, R152). -/
theorem map_subkey_stepIndices (r : Regs) (decrypt : Bool) :
    ((List.range 16).map fun i => BitVec.ofNat 4 (if decrypt then 15 - i else i)).map r.subkey = subkeyOrder r.desSk decrypt := by
  refine List.ext_getElem (by simp) fun i h _ => ?_
  have hi : i < 16 := by simpa using h
  rw [subkeyOrder_getElem]
  cases decrypt with
  | false => simp [Regs.subkey, hi, Nat.mod_eq_of_lt hi]
  | true =>
    have hrev : 15 - i < 16 := by omega
    simp [Regs.subkey, hrev, Nat.mod_eq_of_lt hrev]

theorem execAll_desRoundSteps (decrypt : Bool) (s : State) :
    execAll (desRoundSteps decrypt) s =
      .next (s.withDesHalves (feistelRounds (subkeyOrder s.regs.desSk decrypt) (s.regs.desBlkHi, s.regs.desBlkLo))) := by
  rw [← map_subkey_stepIndices, ← execAll_desRounds (by simp), List.map_map]
  rfl

/-! ## The known answer (95_test_vectors.md §1.1, §2.1) -/

theorem execAll_desKs_desBlock (s : State) (decrypt : Bool) :
    execAll [.desKs, .desBlock decrypt] s = .next ((s.setRegs (s.regs.setDesSk (keySchedule s.regs.desKey))).withDesHalves
      (blockHalves (desBlock s.regs.desBlk (keySchedule s.regs.desKey) decrypt))) := rfl

/-- The third command undoes the second (42_des_feistel.md R154). -/
theorem execAll_desKs_desBlock_twice (s : State) :
    execAll [.desKs, .desBlock false, .desBlock true] s =
      .next ((s.setRegs (s.regs.setDesSk (keySchedule s.regs.desKey))).withDesHalves (blockHalves s.regs.desBlk)) := by
  have hback : desBlock (joinHalves (blockHalves (desBlock s.regs.desBlk (keySchedule s.regs.desKey) false)))
      (keySchedule s.regs.desKey) true = s.regs.desBlk := by
    rw [joinHalves_blockHalves]
    exact desBlock_desBlock _ _ false
  rw [← hback]
  rfl

theorem keySchedule_known : (keySchedule 0x133457799BBCDFF1)[0] = 0x1B02EFFC7072 ∧ (keySchedule 0x133457799BBCDFF1)[15] = 0xCB3D8B0E17F5 := by
  decide +kernel

theorem desBlock_known : desBlock 0x0123456789ABCDEF (keySchedule 0x133457799BBCDFF1) false = 0x85E813540F0AB405 := by decide +kernel

/-! ## The statements -/

/-- Settles O15: the subkeys by induction over the shifts that remain, the last one after a full turn. -/
theorem desKsWritesTheSubkeysInClosedForm : Obligations.DesKsWritesTheSubkeysInClosedForm := by
  intro s
  refine ⟨keySchedule s.regs.desKey, exec_desKs s, keySchedule_getElem s.regs.desKey, ?_⟩
  have hlast := keySchedule_getElem s.regs.desKey 15
  rw [show (15 : Fin 16).val + 1 = 16 from rfl, rotateLeft_all_shifts, rotateLeft_all_shifts,
    BitVec.extractLsb'_append_extractLsb' (w := 28) (len := 28)] at hlast
  exact hlast

/-- Settles O16: PC-1, which reads no parity position, is all the key schedule sees of the key. -/
theorem parityBitsReachNoSubkey : Obligations.ParityBitsReachNoSubkey := by
  intro key m
  have hpc1 : permute 56 (key ^^^ (m &&& 0x0101010101010101)) tablePC1 = permute 56 key tablePC1 :=
    permute_congr fun p hp => by
      rw [tablePos, BitVec.getLsbD_xor, BitVec.getLsbD_and, parity_notMem_PC1 p hp, Bool.and_false, Bool.xor_false, tablePos]
  refine Vector.ext fun i hi => ?_
  have hmasked := keySchedule_getElem (key ^^^ (m &&& 0x0101010101010101)) ⟨i, hi⟩
  rw [hpc1, ← keySchedule_getElem] at hmasked
  exact hmasked

/-- Settles O17: the subkeys and the encryption evaluated; the decryption undoes the encryption. -/
theorem desKnownAnswer : Obligations.DesKnownAnswer := by
  intro s s0
  have hkey : s0.regs.desKey = 0x133457799BBCDFF1 := (by decide : (0x13345779#32 ++ 0x9BBCDFF1#32 : BitVec 64) = 0x133457799BBCDFF1#64)
  have hblk : s0.regs.desBlk = 0x0123456789ABCDEF := (by decide : (0x01234567#32 ++ 0x89ABCDEF#32 : BitVec 64) = 0x0123456789ABCDEF#64)
  refine ⟨⟨_, execAll_desKs_desBlock s0 false, ?_⟩, _, execAll_desKs_desBlock_twice s0, ?_⟩
  · rw [hkey, hblk, desBlock_known]
    exact ⟨rfl, rfl, keySchedule_known⟩
  · rw [hblk]
    exact ⟨rfl, rfl⟩

/-- Settles O18: xor with the round function's value twice is the identity; the rest is evaluated. -/
theorem desRoundFunctionAndItsInverse : Obligations.DesRoundFunctionAndItsInverse := by
  refine ⟨fun l r k => ⟨rfl, rfl, ?_⟩, ⟨0, by decide +kernel⟩, by decide +kernel⟩
  exact (congrArg Prod.fst (congrArg Prod.swap (desRound_swap (l, r) k))).symm

/-- Settles O19: the round's two halves in the two registers. -/
theorem desRoundCommandRunsOneRound : Obligations.DesRoundCommandRunsOneRound := by
  intro idx s
  refine ⟨_, _, exec_desRound idx s, rfl, ?_⟩
  simp [desRound, Regs.subkey]

/-- Settles O20: the halves after the first `i` rounds are the sequences, which one more round continues. -/
theorem desBlockRunsSixteenRounds : Obligations.DesBlockRunsSixteenRounds := by
  intro decrypt s
  refine ⟨desBlock s.regs.desBlk s.regs.desSk decrypt,
    fun i => (feistelRounds ((subkeyOrder s.regs.desSk decrypt).take i) (blockHalves (permute 64 s.regs.desBlk tableIP))).1,
    fun i => (feistelRounds ((subkeyOrder s.regs.desSk decrypt).take i) (blockHalves (permute 64 s.regs.desBlk tableIP))).2,
    exec_desBlock decrypt s, joinHalves_blockHalves _, fun i => ?_, ?_⟩
  · have hi : i.val < (subkeyOrder s.regs.desSk decrypt).length := by simp
    have hround := feistelRounds_concat ((subkeyOrder s.regs.desSk decrypt).take i.val) (subkeyOrder s.regs.desSk decrypt)[i.val]
      (blockHalves (permute 64 s.regs.desBlk tableIP))
    rw [← List.take_succ_eq_append_getElem hi, subkeyOrder_getElem] at hround
    exact ⟨congrArg Prod.fst hround, congrArg Prod.snd hround⟩
  · have hall : (subkeyOrder s.regs.desSk decrypt).take 16 = subkeyOrder s.regs.desSk decrypt := List.take_of_length_le (by simp)
    simp only [hall]
    rfl

/-- Settles O21: the second command's block cipher undoes the first's, and the halves written back are the registers'. -/
theorem desBlockDirectionsUndoEachOther : Obligations.DesBlockDirectionsUndoEachOther := by
  intro decrypt s
  refine ⟨_, exec_desBlock decrypt s, ?_⟩
  rw [exec_desBlock, State.withDesHalves_withDesHalves, State.withDesHalves_desSk, State.withDesHalves_desBlk, joinHalves_blockHalves,
    desBlock_desBlock, State.withDesHalves_desBlk_self]
  rfl

/-- Settles O22: the sixteen commands are the rounds of DES_BLOCK in its order. -/
theorem desRoundsRefineDesBlock : Obligations.DesRoundsRefineDesBlock := by
  intro decrypt s x s0
  exact ⟨_, _, execAll_desRoundSteps decrypt s0, exec_desBlock decrypt s, joinHalves_blockHalves _, rfl⟩

/-- Settles O23: each table holds, at each position, the place of that position in the other. -/
theorem finalPermutationInvertsInitial : Obligations.FinalPermutationInvertsInitial := fun x => ⟨permute_FP_IP x, permute_IP_FP x⟩

end Sys2Proof.Machine
end

section
/-! SUPPORT. Bytes and vectors (20_memory.md R63, R64; 40_des_primitives.md R110, R111; 10_state.md R40, R41): each conversion undoes the other,
and the bytes of the four registers by row and column. -/

namespace Sys2Proof.Machine

/-! ## The number a byte sequence stands for -/

theorem bytesToNat_foldl (b : Bytes) (acc : Nat) :
    b.foldl (fun acc x => 256 * acc + x.toNat) acc = acc * 256 ^ b.length + bytesToNat b := by
  induction b generalizing acc with
  | nil => simp [bytesToNat]
  | cons x b ih =>
    simp only [List.foldl_cons, bytesToNat, List.length_cons, Nat.pow_succ]
    rw [ih, ih (256 * 0 + x.toNat)]
    ring

theorem bytesToNat_cons (x : Byte) (b : Bytes) : bytesToNat (x :: b) = x.toNat * 256 ^ b.length + bytesToNat b := by
  simpa [bytesToNat] using bytesToNat_foldl b x.toNat

theorem bytesToNat_lt (b : Bytes) : bytesToNat b < 256 ^ b.length := by
  induction b with
  | nil => simp [bytesToNat]
  | cons x b ih =>
    rw [bytesToNat_cons, List.length_cons, Nat.pow_succ]
    have : x.toNat * 256 ^ b.length ≤ 255 * 256 ^ b.length := Nat.mul_le_mul_right _ (by omega)
    omega

/-- Byte `j` is the digit of its place in base 256 (20_memory.md R64). -/
theorem bytesToNat_digit (b : Bytes) (j : Nat) (h : j < b.length) :
    bytesToNat b / 256 ^ (b.length - 1 - j) % 256 = b[j].toNat := by
  induction b generalizing j with
  | nil => simp at h
  | cons x b ih =>
    rw [bytesToNat_cons]
    cases j with
    | zero =>
      rw [List.length_cons, Nat.add_sub_cancel, Nat.sub_zero, List.getElem_cons_zero, Nat.mul_comm,
        Nat.mul_add_div (Nat.pow_pos (by decide)), Nat.div_eq_of_lt (bytesToNat_lt b)]
      omega
    | succ j =>
      have hj : j < b.length := by simpa using h
      have hpow : 256 ^ b.length = 256 ^ (b.length - 1 - j) * (256 ^ j * 256) := by
        rw [← Nat.pow_succ, ← Nat.pow_add]
        congr 1
        omega
      rw [List.getElem_cons_succ, ← ih j hj, List.length_cons, show b.length + 1 - 1 - (j + 1) = b.length - 1 - j by omega, hpow,
        show x.toNat * (256 ^ (b.length - 1 - j) * (256 ^ j * 256)) = 256 ^ (b.length - 1 - j) * (256 * (x.toNat * 256 ^ j)) by ring,
        Nat.mul_add_div (Nat.pow_pos (by decide)), Nat.mul_add_mod]

/-! ## The conversions undo each other -/

theorem bitsToBytes_getElem {n : Nat} (x : BitVec n) (j : Nat) (h : j < (bitsToBytes x).length) :
    (bitsToBytes x)[j] = x.extractLsb' (n - 8 * (j + 1)) 8 := by
  simp [bitsToBytes]

/-- A byte sequence is that of the vector it makes (40_des_primitives.md R110, R111). -/
theorem bitsToBytes_bytesToBits {n : Nat} {b : Bytes} (h : n = 8 * b.length) : bitsToBytes (bytesToBits n b) = b := by
  refine List.ext_getElem (by simp [h]) fun j _ hj => BitVec.eq_of_toNat_eq ?_
  have hpow (k : Nat) : 2 ^ (8 * k) = 256 ^ k := by rw [Nat.pow_mul]
  have hlt : bytesToNat b < 2 ^ n := by rw [h, hpow]; exact bytesToNat_lt b
  rw [bitsToBytes_getElem, BitVec.extractLsb'_toNat, bytesToBits, BitVec.toNat_ofNat, Nat.mod_eq_of_lt hlt, Nat.shiftRight_eq_div_pow,
    show n - 8 * (j + 1) = 8 * (b.length - 1 - j) by omega, hpow]
  exact bytesToNat_digit b j hj

/-- A vector of whole bytes is known by its bytes. -/
theorem bitsToBytes_injective {n : Nat} (hn : n % 8 = 0) {x y : BitVec n} (h : bitsToBytes x = bitsToBytes y) : x = y := by
  refine BitVec.eq_of_getLsbD_eq fun i hi => ?_
  have hj : n / 8 - 1 - i / 8 < n / 8 := by omega
  have hbyte : x.extractLsb' (n - 8 * (n / 8 - 1 - i / 8 + 1)) 8 = y.extractLsb' (n - 8 * (n / 8 - 1 - i / 8 + 1)) 8 := by
    rw [← bitsToBytes_getElem x _ (by simpa using hj), ← bitsToBytes_getElem y _ (by simpa using hj)]
    simp only [h]
  have hbit := congrArg (BitVec.getLsbD · (i % 8)) hbyte
  simp only [BitVec.getLsbD_extractLsb', show i % 8 < 8 by omega, decide_true, Bool.true_and,
    show n - 8 * (n / 8 - 1 - i / 8 + 1) + i % 8 = i by omega] at hbit
  exact hbit

/-- A vector of whole bytes is that of its bytes (40_des_primitives.md R110, R111). -/
theorem bytesToBits_bitsToBytes {n : Nat} (hn : n % 8 = 0) (x : BitVec n) : bytesToBits n (bitsToBytes x) = x :=
  bitsToBytes_injective hn (bitsToBytes_bytesToBits (by simp; omega))

/-! ## The bytes of a word and of four words -/

/-- Two words with the same four bytes are equal. -/
theorem word_eq_of_wordByte {v w : Word} (h : ∀ k : Fin 4, wordByte v k.val = wordByte w k.val) : v = w := by
  refine bitsToBytes_injective (by rfl) (List.ext_getElem (by simp) fun k hk _ => ?_)
  have hk4 : k < 4 := by simpa using hk
  simpa [bitsToBytes_getElem, wordByte, show 32 - 8 * (k + 1) = 24 - 8 * k by omega] using h ⟨k, hk4⟩

theorem wordByte_xor (v w : Word) (k : Nat) : wordByte (v ^^^ w) k = wordByte v k ^^^ wordByte w k := BitVec.extractLsb'_xor

/-- Byte `4·c + r` of the four registers is byte `r` of register `c` (10_state.md R40, R41). -/
theorem quadBytes_getD (q : Quad) (c r : Fin 4) : (quadBytes q).getD (4 * c.val + r.val) 0 = wordByte (quadGet q c) r.val := by
  fin_cases c <;> fin_cases r <;> rfl

/-- Four bytes of a sequence, as a word and back. -/
theorem bitsToBytes_wordAt {b : Bytes} {i : Nat} (h : i + 4 ≤ b.length) : bitsToBytes (wordAt b i) = (b.drop i).take 4 :=
  bitsToBytes_bytesToBits (by simp; omega)

/-- Sixteen bytes in the four registers are those sixteen bytes (10_state.md R41). -/
theorem quadBytes_bytesQuad {b : Bytes} (h : b.length = 16) : quadBytes (bytesQuad b) = b := by
  simp only [quadBytes, bytesQuad]
  rw [bitsToBytes_wordAt (by omega), bitsToBytes_wordAt (by omega), bitsToBytes_wordAt (by omega), bitsToBytes_wordAt (by omega),
    List.drop_zero, ← List.take_add, ← List.take_add, ← List.take_add, List.take_of_length_le (by omega)]

/-- Byte `r` of register `c`, written from a sequence of sixteen bytes. -/
theorem wordByte_bytesQuad {b : Bytes} (h : b.length = 16) (c r : Fin 4) :
    wordByte (quadGet (bytesQuad b) c) r.val = b.getD (4 * c.val + r.val) 0 := by
  rw [← quadBytes_getD, quadBytes_bytesQuad h]

theorem quad_eq_of_quadGet {p q : Quad} (h : ∀ c : Fin 4, quadGet p c = quadGet q c) : p = q := by
  obtain ⟨p0, p1, p2, p3⟩ := p
  obtain ⟨q0, q1, q2, q3⟩ := q
  rw [Quad.mk.injEq]
  exact ⟨h 0, h 1, h 2, h 3⟩

/-- The four registers are those of their sixteen bytes (10_state.md R41). -/
theorem bytesQuad_quadBytes (q : Quad) : bytesQuad (quadBytes q) = q :=
  quad_eq_of_quadGet fun c => word_eq_of_wordByte fun r => by rw [wordByte_bytesQuad (quadBytes_length q), quadBytes_getD]

end Sys2Proof.Machine
end

section
/-! SUPPORT. The AES family (45_aes_key_expansion.md, 46_aes_block.md): the key expansion's recurrence, the bytes of the four transforms, and
the commands on AES_STATE as functions of its sixteen bytes; then the proofs of the statements on the register commands of AES. -/

namespace Sys2Proof.Machine

/-! ## The key expansion -/

/-- Every word that `keyWords` adds comes from the word four places back and the word before it (45_aes_key_expansion.md R203). -/
theorem keyWords_getD (count i : Nat) (a b c d : Word) (k : Nat) (h : k < count) :
    ([a, b, c, d] ++ keyWords count i a b c d).getD (k + 4) 0 =
      keyWord (i + k) (([a, b, c, d] ++ keyWords count i a b c d).getD k 0) (([a, b, c, d] ++ keyWords count i a b c d).getD (k + 3) 0) := by
  induction count generalizing i a b c d k with
  | zero => omega
  | succ n ih =>
    cases k with
    | zero => rfl
    | succ k =>
      have hnext := ih (i + 1) b c d (keyWord i a d) k (by omega)
      rw [show i + 1 + k = i + (k + 1) by omega] at hnext
      exact hnext

theorem roundKeyWord_keyExpansionWords (q : Quad) (j : Nat) :
    roundKeyWord (keyExpansionWords q) j = ([q.w0, q.w1, q.w2, q.w3] ++ keyWords 40 4 q.w0 q.w1 q.w2 q.w3).getD j 0 := rfl

/-- Words 0 to 3 are the key's (45_aes_key_expansion.md R203). -/
theorem roundKeyWord_key (q : Quad) (c : Fin 4) : roundKeyWord (keyExpansionWords q) c.val = quadGet q c := by
  fin_cases c <;> rfl

/-- The recurrence of the later words (45_aes_key_expansion.md R203). -/
theorem roundKeyWord_recurrence (q : Quad) {i : Nat} (hlo : 4 ≤ i) (hhi : i < 44) :
    roundKeyWord (keyExpansionWords q) i =
      keyWord i (roundKeyWord (keyExpansionWords q) (i - 4)) (roundKeyWord (keyExpansionWords q) (i - 1)) := by
  obtain ⟨k, rfl⟩ := Nat.exists_eq_add_of_le hlo
  simp only [roundKeyWord_keyExpansionWords]
  rw [show 4 + k - 4 = k by omega, show 4 + k - 1 = k + 3 by omega, Nat.add_comm 4 k, keyWords_getD 40 4 _ _ _ _ k (by omega), Nat.add_comm 4 k]

theorem exec_aesKeyexp (s : State) :
    exec .aesKeyexp s = .next (s.setRegs (s.regs.setAesRk (keyExpansionWords s.regs.aesKey))).completeOk := by
  rw [exec, execAesKeyexp, keyExpansion, bytesQuad_quadBytes]
  rfl

/-! ## The transforms, byte by byte -/

@[simp] theorem subBytes_length (b : Bytes) : (subBytes b).length = b.length := by simp [subBytes]
@[simp] theorem shiftRows_length (b : Bytes) : (shiftRows b).length = 16 := by simp [shiftRows]
@[simp] theorem mixColumns_length (b : Bytes) : (mixColumns b).length = 16 := rfl
@[simp] theorem addRoundKey_length (b : Bytes) (w : Vector Word 44) (r : Nat) : (addRoundKey b w r).length = 16 := by simp [addRoundKey]
@[simp] theorem aesEncryptBlock_length (b : Bytes) (w : Vector Word 44) : (aesEncryptBlock b w).length = 16 := addRoundKey_length _ _ _

theorem subBytes_getD {b : Bytes} {k : Nat} (h : k < b.length) : (subBytes b).getD k 0 = sboxAes (b.getD k 0) := by
  simp [subBytes, h]

theorem shiftRows_getD (b : Bytes) (c r : Fin 4) :
    (shiftRows b).getD (4 * c.val + r.val) 0 = b.getD (4 * (c + r).val + r.val) 0 := by
  fin_cases c <;> fin_cases r <;> rfl

theorem mixColumns_getD (b : Bytes) (c r : Fin 4) :
    (mixColumns b).getD (4 * c.val + r.val) 0 =
      (mixColumn (b.getD (4 * c.val) 0) (b.getD (4 * c.val + 1) 0) (b.getD (4 * c.val + 2) 0) (b.getD (4 * c.val + 3) 0)).getD r.val 0 := by
  fin_cases c <;> fin_cases r <;> rfl

theorem addRoundKey_getD (b : Bytes) (w : Vector Word 44) (n : Nat) (c r : Fin 4) :
    (addRoundKey b w n).getD (4 * c.val + r.val) 0 =
      b.getD (4 * c.val + r.val) 0 ^^^ wordByte (roundKeyWord w (4 * n + c.val)) r.val := by
  have hlt : 4 * c.val + r.val < 16 := by omega
  have hcol : (4 * c.val + r.val) / 4 = c.val := by omega
  have hrow : (4 * c.val + r.val) % 4 = r.val := by omega
  simp [addRoundKey, hlt, hcol, hrow]

/-! ## Multiplication in GF(2^8) -/

/-- Multiplying by 0x02 is `xtime` (45_aes_key_expansion.md R200). -/
theorem gfMul_two : ∀ a : Byte, gfMul a 0x02 8 = xtime a := by decide +kernel

/-- Multiplying by 0x03 is `mul3` (45_aes_key_expansion.md R200). -/
theorem gfMul_three : ∀ a : Byte, gfMul a 0x03 8 = mul3 a := by decide +kernel

/-- Each byte of a column by the matrix's row: the rows are the first one rotated (46_aes_block.md R213). -/
theorem mixColumn_getD (a : Fin 4 → Byte) (r : Fin 4) :
    (mixColumn (a 0) (a 1) (a 2) (a 3)).getD r.val 0 =
      gfMul (a r) 0x02 8 ^^^ gfMul (a (r + 1)) 0x03 8 ^^^ a (r + 2) ^^^ a (r + 3) := by
  rw [gfMul_two, gfMul_three]
  fin_cases r <;> simp [mixColumn] <;> ac_rfl

/-! ## The commands on AES_STATE -/

/-- One function of the sixteen bytes after another, each with its completion (46_aes_block.md R210). -/
theorem onAesState_onAesState (s : State) {f : Bytes → Bytes} (g : Bytes → Bytes) (hf : (f (quadBytes s.regs.aesState)).length = 16) :
    ((s.onAesState f).completeOk.onAesState g).completeOk = (s.onAesState fun b => g (f b)).completeOk := by
  simp only [State.onAesState, State.completeOk_regs, State.setRegs_regs, Regs.setAesState_aesState, quadBytes_bytesQuad hf]
  rfl

@[simp] theorem onAesState_aesState (s : State) (f : Bytes → Bytes) :
    (s.onAesState f).regs.aesState = bytesQuad (f (quadBytes s.regs.aesState)) := rfl

theorem exec_aesBlockEnc (s : State) :
    exec .aesBlockEnc s = .next (s.onAesState fun b => aesEncryptBlock b s.regs.aesRk).completeOk := rfl

/-- The step commands of a round (46_aes_block.md R216 to R219). -/
def isAesStep : Instr → Bool
  | .aesSubbytes | .aesShiftrows | .aesMixcolumns => true
  | .aesAddrk idx => idx.toNat ≤ 10
  | _ => false

/-- What a step command does to the sixteen bytes (46_aes_block.md R216 to R219). -/
def aesStep (w : Vector Word 44) : Instr → Bytes → Bytes
  | .aesSubbytes => subBytes
  | .aesShiftrows => shiftRows
  | .aesMixcolumns => mixColumns
  | .aesAddrk idx => fun b => addRoundKey b w idx.toNat
  | _ => id

theorem aesStep_length (w : Vector Word 44) {i : Instr} (hi : isAesStep i = true) {b : Bytes} (hb : b.length = 16) :
    (aesStep w i b).length = 16 := by
  cases i with
  | aesSubbytes => exact (subBytes_length b).trans hb
  | aesShiftrows => exact shiftRows_length b
  | aesMixcolumns => exact mixColumns_length b
  | aesAddrk idx => exact addRoundKey_length b w idx.toNat
  | _ => cases hi

theorem exec_aesAddrk {idx : BitVec 4} (h : idx.toNat ≤ 10) (s : State) :
    exec (.aesAddrk idx) s = .next (s.onAesState fun b => addRoundKey b s.regs.aesRk idx.toNat).completeOk := if_pos h

theorem exec_aesStep {i : Instr} (hi : isAesStep i = true) (s : State) :
    exec i s = .next (s.onAesState (aesStep s.regs.aesRk i)).completeOk := by
  cases i with
  | aesSubbytes | aesShiftrows | aesMixcolumns => rfl
  | aesAddrk idx => exact exec_aesAddrk (of_decide_eq_true hi) s
  | _ => cases hi

/-- Step commands one after another are their functions, in order. -/
theorem execAll_aesSteps {l : List Instr} (hne : l ≠ []) (hl : ∀ i ∈ l, isAesStep i = true) (s : State) :
    execAll l s = .next (s.onAesState fun b => l.foldl (fun b i => aesStep s.regs.aesRk i b) b).completeOk := by
  induction l generalizing s with
  | nil => exact absurd rfl hne
  | cons i rest ih =>
    obtain ⟨hi, hrest⟩ := List.forall_mem_cons.1 hl
    rw [execAll, exec_aesStep hi]
    cases rest with
    | nil => rfl
    | cons next rest =>
      refine (ih (List.cons_ne_nil next rest) hrest _).trans (congrArg _ ?_)
      exact onAesState_onAesState s _ (aesStep_length _ hi (quadBytes_length _))

/-- The functions of AES_BLOCK_ENC's step commands, in order, are the block cipher (46_aes_block.md R215). -/
theorem foldl_aesBlockSteps (w : Vector Word 44) (b : Bytes) :
    aesBlockSteps.foldl (fun b i => aesStep w i b) b = aesEncryptBlock b w := rfl

/-! ## The statements -/

/-- Settles O28: the words of AES_KEY and the recurrence of the words after them. -/
theorem aesKeyexpMeetsTheRecurrence : Obligations.AesKeyexpMeetsTheRecurrence := fun s =>
  ⟨keyExpansionWords s.regs.aesKey, exec_aesKeyexp s, roundKeyWord_key s.regs.aesKey, fun _ => roundKeyWord_recurrence s.regs.aesKey⟩

/-- Settles O29: each of the sixteen bytes through the S-box. -/
theorem aesSubbytesSubstitutesEachByte : Obligations.AesSubbytesSubstitutesEachByte := by
  refine fun s => ⟨_, rfl, fun c r => ?_⟩
  rw [wordByte_bytesQuad (by simp), subBytes_getD (by simp; omega), quadBytes_getD]

/-- Settles O30: the byte at column `c` of row `r` comes from column `c + r`. -/
theorem aesShiftrowsRotatesTheRows : Obligations.AesShiftrowsRotatesTheRows := by
  refine fun s => ⟨_, rfl, fun c r => ?_⟩
  rw [wordByte_bytesQuad (by simp), shiftRows_getD, quadBytes_getD]

/-- Settles O31: each byte of a column by the matrix's row. -/
theorem aesMixcolumnsMultipliesEachColumn : Obligations.AesMixcolumnsMultipliesEachColumn := by
  refine fun s => ⟨_, rfl, fun c r => ?_⟩
  intro a
  have hbyte (k : Fin 4) : (quadBytes s.regs.aesState).getD (4 * c.val + k.val) 0 = a k := quadBytes_getD s.regs.aesState c k
  rw [wordByte_bytesQuad (by simp), mixColumns_getD, ← mixColumn_getD, ← hbyte 0, ← hbyte 1, ← hbyte 2, ← hbyte 3]
  rfl

/-- Settles O32: the four bytes of each register's word. -/
theorem aesAddrkXorsTheRoundKey : Obligations.AesAddrkXorsTheRoundKey := by
  refine fun idx s hidx => ⟨_, exec_aesAddrk hidx s, fun c => word_eq_of_wordByte fun r => ?_⟩
  rw [wordByte_bytesQuad (by simp), addRoundKey_getD, quadBytes_getD, wordByte_xor]

/-- Settles O34: the step commands' functions, one after another, are the block cipher. -/
theorem aesBlockEncIsItsStepCommands : Obligations.AesBlockEncIsItsStepCommands := by
  refine fun s => ⟨_, exec_aesBlockEnc s, ?_⟩
  rw [execAll_aesSteps (by decide) (by decide)]
  simp only [foldl_aesBlockSteps, exec_aesBlockEnc]

end Sys2Proof.Machine
end

section
/-! SUPPORT. The padding rules and the key derivation (43_des_ecb.md, 44_pbkdf2.md, 47_aes_cbc.md): sequences made of blocks of one length, PKCS7
padding and its removal, the lengths of SHA-1, HMAC and PBKDF2, and the bytes of a derived key; then the proofs of the statements on them. -/

namespace Sys2Proof.Machine

/-! ## Blocks of one length in a row -/

theorem flatMap_range_length {f : Nat → Bytes} {size : Nat} (hf : ∀ i, (f i).length = size) (count : Nat) :
    ((List.range count).flatMap f).length = size * count := by
  simp [List.length_flatMap, hf, Nat.mul_comm]

/-- Block `i` of a row of blocks. -/
theorem flatMap_range_block {f : Nat → Bytes} {size : Nat} (hf : ∀ i, (f i).length = size) {count i : Nat} (hi : i < count) :
    (((List.range count).flatMap f).drop (size * i)).take size = f i := by
  obtain ⟨rest, rfl⟩ := Nat.exists_eq_add_of_lt hi
  have hlen := flatMap_range_length hf i
  rw [Nat.add_assoc, List.range_add, List.flatMap_append, List.drop_append_of_le_length hlen.ge, List.drop_of_length_le hlen.le,
    List.nil_append, List.range_succ_eq_map]
  simp [hf]

/-- Byte `k` of a row of blocks is byte `k mod size` of block `k / size`. -/
theorem flatMap_range_getD {f : Nat → Bytes} {size : Nat} (hf : ∀ i, (f i).length = size) {count k : Nat} (hk : k < size * count) :
    ((List.range count).flatMap f).getD k 0 = (f (k / size)).getD (k % size) 0 := by
  have hsize : 0 < size := Nat.pos_of_mul_pos_right (Nat.zero_lt_of_lt hk)
  have hmod := Nat.mod_lt k hsize
  rw [← flatMap_range_block hf (Nat.div_lt_of_lt_mul hk)]
  simp [List.getD_eq_getElem?_getD, hmod, Nat.div_add_mod]

/-- A shorter row of blocks begins every longer one. -/
theorem flatMap_range_take {f : Nat → Bytes} {size : Nat} (hf : ∀ i, (f i).length = size) {m n len : Nat} (hmn : m ≤ n)
    (hlen : len ≤ size * m) : ((List.range n).flatMap f).take len = ((List.range m).flatMap f).take len := by
  obtain ⟨k, rfl⟩ := Nat.exists_eq_add_of_le hmn
  rw [List.range_add, List.flatMap_append, List.take_append_of_le_length (by rw [flatMap_range_length hf]; exact hlen)]

/-! ## PKCS7 padding -/

/-- The padded length is the next multiple of the block size (47_aes_cbc.md R230). -/
theorem pkcs7Pad_length (p : Bytes) {bs : Nat} (h : 1 ≤ bs) : (pkcs7Pad p bs).length = bs * (p.length / bs + 1) := by
  have hmod := Nat.mod_lt p.length h
  have hdiv := Nat.div_add_mod p.length bs
  rw [pkcs7Pad, List.length_append, List.length_replicate, Nat.mul_succ]
  omega

/-- Padding ends in the byte that counts it, so its removal takes exactly the padding (43_des_ecb.md R160, 47_aes_cbc.md R230). -/
theorem pkcs7UnpadLenient_pkcs7Pad (p : Bytes) {bs : Nat} (hpos : 1 ≤ bs) (hle : bs ≤ 255) :
    pkcs7UnpadLenient (pkcs7Pad p bs) bs = p := by
  have hmod := Nat.mod_lt p.length hpos
  obtain ⟨n, hn⟩ : ∃ n, bs - p.length % bs = n + 1 := ⟨bs - p.length % bs - 1, by omega⟩
  have hv : (BitVec.ofNat 8 (n + 1)).toNat = n + 1 := by simp; omega
  rw [pkcs7Pad, hn, List.replicate_succ', ← List.append_assoc, pkcs7UnpadLenient_concat_strips _ (by omega) (by omega), hv]
  simp

/-! ## SHA-1 and HMAC -/

@[simp] theorem sha1_length (m : Bytes) : (sha1 m).length = 20 := by simp [sha1]

@[simp] theorem hmacSha1_length (k m : Bytes) : (hmacSha1 k m).length = 20 := sha1_length _

/-- A key longer than a block has the HMAC key of its digest (44_pbkdf2.md R176). -/
theorem hmacKey_of_long {k : Bytes} (h : 64 < k.length) : hmacKey k = hmacKey (sha1 k) := by
  simp [hmacKey, h]

/-- The number of zero bytes is what is missing to a multiple of 64 (44_pbkdf2.md R170). -/
theorem sha1ZeroCount_spec (len : Nat) : (len + 1 + sha1ZeroCount len + 8) % 64 = 0 ∧ sha1ZeroCount len < 64 := by
  unfold sha1ZeroCount
  omega

theorem sha1Pad_length (m : Bytes) : (sha1Pad m).length = m.length + 1 + sha1ZeroCount m.length + 8 := by
  simp [sha1Pad, int64be]
  omega

/-! ## PBKDF2 -/

theorem pbkdf2Iterate_length (p : Bytes) (count : Nat) {u t : Bytes} (ht : t.length = 20) : (pbkdf2Iterate p count u t).length = 20 := by
  induction count generalizing u t with
  | zero => exact ht
  | succ n ih => exact ih (by simp [ht])

@[simp] theorem pbkdf2Block_length (p salt : Bytes) (c i : Nat) : (pbkdf2Block p salt c i).length = 20 :=
  pbkdf2Iterate_length p _ (hmacSha1_length _ _)

/-- The derived key has the length asked for (44_pbkdf2.md R177). -/
@[simp] theorem pbkdf2_length (p salt : Bytes) (c len : Nat) : (pbkdf2 p salt c len).length = len := by
  rw [pbkdf2, List.length_take, flatMap_range_length fun i => pbkdf2Block_length p salt c (i + 1)]
  omega

theorem xorBytes_getD {a b : Bytes} (h : a.length = b.length) (k : Nat) : (xorBytes a b).getD k 0 = a.getD k 0 ^^^ b.getD k 0 := by
  by_cases hk : k < a.length
  · simp [xorBytes, hk, h ▸ hk]
  · simp [xorBytes, hk, h ▸ hk]

/-- A byte of a PBKDF2 block is the exclusive or of that byte of every `U` (44_pbkdf2.md R177). -/
theorem pbkdf2Iterate_getD (p : Bytes) (count : Nat) {u t : Bytes} (ht : t.length = 20) (k : Nat) :
    (pbkdf2Iterate p count u t).getD k 0 =
      (List.range count).foldl (fun acc j => acc ^^^ ((hmacSha1 p)^[j + 1] u).getD k 0) (t.getD k 0) := by
  induction count generalizing u t with
  | zero => rfl
  | succ n ih =>
    rw [pbkdf2Iterate, ih (by simp [ht]), xorBytes_getD (by simp [ht]), List.range_succ_eq_map, List.foldl_cons, List.foldl_map]
    rfl

theorem pbkdf2Block_getD (p salt : Bytes) {c : Nat} (hc : c ≠ 0) (i k : Nat) :
    (pbkdf2Block p salt c i).getD k 0 =
      (List.range c).foldl (fun acc j => acc ^^^ ((hmacSha1 p)^[j] (hmacSha1 p (salt ++ int32be i))).getD k 0) 0 := by
  obtain ⟨n, rfl⟩ := Nat.exists_eq_succ_of_ne_zero hc
  have hzero (x : Byte) : 0 ^^^ x = x := BitVec.zero_xor
  rw [pbkdf2Block, pbkdf2Iterate_getD p _ (hmacSha1_length _ _), List.range_succ_eq_map, List.foldl_cons, List.foldl_map, hzero]
  rfl

/-- Byte `k` of a derived key is byte `k mod 20` of block `k / 20 + 1` (44_pbkdf2.md R177). -/
theorem pbkdf2_getD (p salt : Bytes) (c : Nat) {len k : Nat} (hk : k < len) :
    (pbkdf2 p salt c len).getD k 0 = (pbkdf2Block p salt c (k / 20 + 1)).getD (k % 20) 0 := by
  rw [← flatMap_range_getD (f := fun i => pbkdf2Block p salt c (i + 1)) (count := (len + 19) / 20)
    (fun i => pbkdf2Block_length p salt c (i + 1)) (by omega)]
  simp [pbkdf2, List.getD_eq_getElem?_getD, hk]

/-! ## The statements -/

/-- Settles O27: the last byte of the padding is its length. -/
theorem unpaddingInvertsPadding : Obligations.UnpaddingInvertsPadding := fun p _ => pkcs7UnpadLenient_pkcs7Pad p

/-- Settles O36: the padded length is a multiple of 16, and the two examples are evaluated. -/
theorem paddingFillsToTheNextBlock : Obligations.PaddingFillsToTheNextBlock :=
  ⟨fun p => ⟨16 - p.length % 16, rfl, by omega, by omega, rfl, pkcs7Pad_length p (by decide)⟩, rfl, rfl⟩

/-- Settles O39: a digest is five words, and one of 20 bytes needs no hashing as a key. -/
theorem longHmacKeysAreHashedFirst : Obligations.LongHmacKeysAreHashedFirst := by
  refine fun k m => ⟨sha1_length m, hmacSha1_length k m, fun h => ?_, fun h => by simp [hmacKey, h]⟩
  rw [hmacSha1, hmacKey_of_long h, ← hmacSha1]

/-- Settles O40: the blocks of a shorter key are the first ones of a longer key. -/
theorem shorterDerivedKeyIsAPrefix : Obligations.ShorterDerivedKeyIsAPrefix := by
  refine fun p salt c a b => ⟨pbkdf2_length p salt c a, fun h => ?_⟩
  rw [pbkdf2, List.take_take, min_eq_left h]
  exact flatMap_range_take (fun i => pbkdf2Block_length p salt c (i + 1)) (by omega) (by omega)

/-- Settles O41: fewer zero bytes than `sha1ZeroCount` leave the length short of the next multiple of 64. -/
theorem sha1PaddingIsLeast : Obligations.Sha1PaddingIsLeast := by
  intro m
  obtain ⟨hfill, hlt⟩ := sha1ZeroCount_spec m.length
  refine ⟨sha1ZeroCount m.length, rfl, hfill, fun y hy => by omega, ?_⟩
  rw [sha1Pad_length]
  exact hfill

end Sys2Proof.Machine
end

section
/-! SUPPORT. The buffer commands (43_des_ecb.md, 44_pbkdf2.md, 47_aes_cbc.md): when their checks pass, the bytes each one writes, and what its
output leaves unchanged; then the proofs of the statements on their success. -/

namespace Sys2Proof.Machine

/-! ## The output of a buffer command -/

/-- The machine after a buffer command that completed with these bytes: they stand at DST_ADDR, their number in OUT_LEN (10_state.md R29). -/
def State.withOutput (s : State) (bytes : Bytes) : State :=
  ((s.memWrite s.regs.dstAddr.toNat bytes).setRegs (s.regs.setOutLen (BitVec.ofNat 32 bytes.length))).completeOk

/-- A buffer command whose checks pass commits its bytes (60_exceptions.md R253, R254). -/
theorem commit_bufferCommand_ok {s : State} {checks : List (Bool × ECode)} (h : firstError checks = none) (bytes : Bytes) :
    s.commit (s.bufferCommand checks s.regs.dstAddr.toNat (.ok bytes)) = s.withOutput bytes := by
  rw [State.bufferCommand, h]
  rfl

/-- A buffer command reports an error and does nothing else, or its checks pass and it writes its function's bytes (60_exceptions.md R254). -/
theorem commit_bufferCommand_cases (s : State) {checks : List (Bool × ECode)} {out : Except ECode Bytes} {bytes : Bytes}
    (hok : firstError checks = none → out = .ok bytes) :
    (∃ e, s.commit (s.bufferCommand checks s.regs.dstAddr.toNat out) = s.raise e) ∨
    (firstError checks = none ∧ s.commit (s.bufferCommand checks s.regs.dstAddr.toNat out) = s.withOutput bytes) := by
  cases hc : firstError checks with
  | some e => exact .inl ⟨e, by simp [State.bufferCommand, hc]⟩
  | none => exact .inr ⟨rfl, by rw [hok hc, commit_bufferCommand_ok hc]⟩

theorem withOutput_frame (s : State) (bytes : Bytes) :
    s.withOutput bytes = { s with
      regs := { s.regs with outLen := (s.withOutput bytes).regs.outLen }, dmem := (s.withOutput bytes).dmem,
      status := okStatus, phase := .idle } := rfl

/-- OUT_LEN counts the bytes, which fit in DMEM (20_memory.md R66, 10_state.md R29). -/
theorem withOutput_outLen {s : State} {bytes : Bytes} (h : s.regs.dstAddr.toNat + bytes.length ≤ s.memsize.toNat) :
    (s.withOutput bytes).regs.outLen.toNat = bytes.length := by
  have := s.memsize.isLt
  exact (BitVec.toNat_ofNat ..).trans (Nat.mod_eq_of_lt (by omega))

theorem withOutput_memRead (s : State) (bytes : Bytes) : (s.withOutput bytes).memRead s.regs.dstAddr.toNat bytes.length = bytes :=
  memRead_memWrite s _ bytes

theorem withOutput_readByte_inside (s : State) {bytes : Bytes} {k : Nat} (h : k < bytes.length) :
    (s.withOutput bytes).readByte (s.regs.dstAddr.toNat + k) = bytes.getD k 0 := by
  rw [List.getD_eq_getElem _ _ h]
  exact readByte_memWrite_inside s _ k bytes h

theorem withOutput_readByte_outside (s : State) {bytes : Bytes} {x : Nat}
    (h : x < s.regs.dstAddr.toNat ∨ s.regs.dstAddr.toNat + bytes.length ≤ x) : (s.withOutput bytes).readByte x = s.readByte x :=
  readByte_memWrite_outside s _ x bytes h

/-- A part of a range that is read is that part of its bytes. -/
theorem memRead_part (s : State) (a : Nat) {n k m : Nat} (h : k + m ≤ n) : s.memRead (a + k) m = ((s.memRead a n).drop k).take m := by
  refine List.ext_getElem (by simp; omega) fun i h1 h2 => ?_
  simp [Nat.add_assoc]

theorem withOutput_memRead_part (s : State) {bytes : Bytes} {k m : Nat} (h : k + m ≤ bytes.length) :
    (s.withOutput bytes).memRead (s.regs.dstAddr.toNat + k) m = (bytes.drop k).take m := by
  rw [memRead_part _ _ h, withOutput_memRead]

/-- Output inside DMEM keeps the canonical form (20_memory.md R66). -/
theorem withOutput_wf {s : State} (hs : Memory.wf s.dmemSize s.dmem) {bytes : Bytes}
    (h : s.regs.dstAddr.toNat + bytes.length ≤ s.memsize.toNat) : Memory.wf (s.withOutput bytes).dmemSize (s.withOutput bytes).dmem :=
  memInsertAll_wf bytes hs h

/-! ## When the checks pass -/

theorem firstError_cons_eq_none {b : Bool} {e : ECode} {rest : List (Bool × ECode)} :
    firstError ((b, e) :: rest) = none ↔ b = false ∧ firstError rest = none := by
  cases b <;> simp

/-- The range checks pass exactly when every range fits and the destination is apart from every source (20_memory.md R66, R67). -/
theorem firstError_rangeErrors_eq_none {size : Nat} {dst : Nat × Nat} {srcs : List (Nat × Nat)} :
    firstError (rangeErrors size dst srcs) = none ↔
      ((∀ r ∈ srcs, r.1 + r.2 ≤ size) ∧ dst.1 + dst.2 ≤ size) ∧ ∀ r ∈ srcs, Apart dst.1 dst.2 r.1 r.2 := by
  simp only [rangeErrors_none, inBounds, decide_eq_true_eq, overlap_eq_false_iff_apart]

theorem desEcbChecks_pass_iff {s : State} : firstError (desEcbChecks s) = none ↔ DesEcbReady s := by
  simp only [desEcbChecks, firstError_cons_eq_none, firstError_rangeErrors_eq_none, decide_eq_false_iff_not, List.forall_mem_cons,
    List.not_mem_nil, false_imp_iff, implies_true, and_true, rangeOf, State.dmemSize, DesEcbReady]
  simp only [not_or, not_not, Nat.not_lt, and_assoc, ne_eq]

theorem aesCbcChecks_pass_iff {s : State} : firstError (aesCbcChecks s) = none ↔ AesCbcReady s := by
  simp only [aesCbcChecks, firstError_cons_eq_none, firstError_rangeErrors_eq_none, decide_eq_false_iff_not, List.forall_mem_cons,
    List.not_mem_nil, false_imp_iff, implies_true, and_true, rangeOf, State.dmemSize, AesCbcReady, cbcLength, paddedLen]
  simp only [Nat.not_lt, and_assoc]

theorem pbkdf2Checks_pass_iff {s : State} : firstError (pbkdf2Checks s) = none ↔ Pbkdf2Ready s := by
  simp only [pbkdf2Checks, firstError_cons_eq_none, firstError_rangeErrors_eq_none, decide_eq_false_iff_not, List.forall_mem_cons,
    List.not_mem_nil, false_imp_iff, implies_true, and_true, rangeOf, State.dmemSize, Pbkdf2Ready]
  simp only [not_or, and_assoc, ne_eq]

/-! ## DES_ECB_DEC -/

@[simp] theorem desBlockBytes_length (b : Bytes) (sk : Vector (BitVec 48) 16) (decrypt : Bool) : (desBlockBytes b sk decrypt).length = 8 :=
  bitsToBytes_length _

/-- A block decrypted after its encryption is the block (42_des_feistel.md R154). -/
theorem desBlockBytes_decrypt_encrypt {b : Bytes} (h : b.length = 8) (sk : Vector (BitVec 48) 16) :
    desBlockBytes (desBlockBytes b sk false) sk true = b := by
  have hback : desBlock (desBlock (bytesToBits 64 b) sk false) sk true = bytesToBits 64 b := desBlock_desBlock _ sk false
  rw [desBlockBytes, desBlockBytes, bytesToBits_bitsToBytes (by rfl), hback, bitsToBytes_bytesToBits (by omega)]

/-- The blocks of a row of blocks. -/
theorem blocks_flatMap {f : Bytes → Bytes} {size : Nat} (hf : ∀ b, (f b).length = size) (l : List Bytes) :
    blocks size l.length (l.flatMap f) = l.map f := by
  induction l with
  | nil => rfl
  | cons b l ih =>
    rw [List.flatMap_cons, List.length_cons, blocks, List.take_left' (hf b), List.drop_left' (hf b), ih, List.map_cons]

theorem desEcbEncrypt_length (p : Bytes) (sk : Vector (BitVec 48) 16) : (desEcbEncrypt p sk).length = 8 * (p.length / 8) := by
  simp [desEcbEncrypt, List.length_flatMap, Nat.mul_comm]

@[simp] theorem desEcbBlocks_length (ct : Bytes) (sk : Vector (BitVec 48) 16) : (desEcbBlocks ct sk).length = 8 * (ct.length / 8) := by
  simp [desEcbBlocks, List.length_flatMap, Nat.mul_comm]

/-- Decryption of the blocks undoes their encryption (43_des_ecb.md R161, R165). -/
theorem desEcbBlocks_desEcbEncrypt {p : Bytes} (h : p.length % 8 = 0) (sk : Vector (BitVec 48) 16) :
    desEcbBlocks (desEcbEncrypt p sk) sk = p := by
  have hcount : 8 * (p.length / 8) = p.length := by omega
  have hblocks := blocks_flatMap (fun b => desBlockBytes_length b sk false) (blocks 8 (p.length / 8) p)
  rw [blocks_length] at hblocks
  rw [desEcbBlocks, desEcbEncrypt_length, Nat.mul_div_cancel_left _ (by decide), desEcbEncrypt, hblocks, List.flatMap_map]
  have hid : ∀ b ∈ blocks 8 (p.length / 8) p, desBlockBytes (desBlockBytes b sk false) sk true = b := fun b hb =>
    desBlockBytes_decrypt_encrypt (blocks_full (by omega) hb) sk
  rw [List.flatMap_congr hid, List.flatMap_id', blocks_flatten hcount.symm]

/-- The blocks of a range that is read are the ranges read one after another. -/
theorem blocks_memRead (s : State) (size count a : Nat) :
    blocks size count (s.memRead a (size * count)) = (List.range count).map fun j => s.memRead (a + size * j) size := by
  induction count generalizing a with
  | zero => rfl
  | succ n ih =>
    have hhead : (s.memRead a (size * (n + 1))).take size = s.memRead a size :=
      (memRead_part s a (k := 0) (by rw [Nat.mul_succ]; omega)).symm
    have htail : (s.memRead a (size * (n + 1))).drop size = s.memRead (a + size) (size * n) := by
      rw [memRead_part s a (k := size) (m := size * n) (n := size * (n + 1)) (by rw [Nat.mul_succ]; omega)]
      exact (List.take_of_length_le (by simp [Nat.mul_succ])).symm
    rw [blocks, hhead, htail, ih, List.range_succ_eq_map]
    simp [Function.comp_def, Nat.mul_succ, Nat.add_assoc, Nat.add_comm size]

/-- Unpadding takes at most a block (43_des_ecb.md R160). -/
theorem pkcs7UnpadLenient_length (p : Bytes) (bs : Nat) :
    (pkcs7UnpadLenient p bs).length ≤ p.length ∧ p.length ≤ (pkcs7UnpadLenient p bs).length + bs := by
  simp only [pkcs7UnpadLenient]
  split
  · rw [List.length_take]; omega
  · omega

/-- What DES_ECB_DEC writes when its checks pass (43_des_ecb.md R161, R163). -/
def desEcbOutput (s : State) : Bytes :=
  pkcs7UnpadLenient (desEcbBlocks (s.memRead s.regs.srcAddr.toNat s.regs.srcLen.toNat)
    (keySchedule (bytesToBits 64 (s.memRead s.regs.keyAddr.toNat 8)))) 8

/-- The checks make the function's own two checks, so it answers its bytes (43_des_ecb.md R161, R163). -/
theorem desEcbDecrypt_of_ready {s : State} (h : DesEcbReady s) :
    desEcbDecrypt (s.memRead s.regs.srcAddr.toNat s.regs.srcLen.toNat) (s.memRead s.regs.keyAddr.toNat 8) = .ok (desEcbOutput s) := by
  obtain ⟨hpos, hmod, -⟩ := h
  simp [desEcbDecrypt, desEcbOutput, hpos, hmod, List.take_of_length_le]

theorem exec_desEcbDec_of_ready {s : State} (h : DesEcbReady s) : exec .desEcbDec s = .next (s.withOutput (desEcbOutput s)) := by
  rw [exec, execDesEcbDec, desEcbDecrypt_of_ready h, commit_bufferCommand_ok (desEcbChecks_pass_iff.2 h)]

theorem desEcbOutput_length {s : State} (h : DesEcbReady s) :
    (desEcbOutput s).length ≤ s.regs.srcLen.toNat ∧ s.regs.srcLen.toNat ≤ (desEcbOutput s).length + 8 := by
  obtain ⟨-, hmod, -⟩ := h
  have hlen := pkcs7UnpadLenient_length (desEcbBlocks (s.memRead s.regs.srcAddr.toNat s.regs.srcLen.toNat)
    (keySchedule (bytesToBits 64 (s.memRead s.regs.keyAddr.toNat 8)))) 8
  rw [desEcbBlocks_length, memRead_length] at hlen
  rw [desEcbOutput]
  omega

theorem desEcbOutput_fits {s : State} (h : DesEcbReady s) : s.regs.dstAddr.toNat + (desEcbOutput s).length ≤ s.memsize.toNat := by
  have ⟨_, _, _, _, _, hdst, _⟩ := h
  have := (desEcbOutput_length h).1
  omega

/-! ## AES_CBC_ENC -/

/-- Ciphertext block `i` of a padded text, counted from 1, the IV before the first (47_aes_cbc.md R231). -/
def cbcCipher (w : Vector Word 44) (q iv : Bytes) : Nat → Bytes
  | 0 => iv
  | i + 1 => aesEncryptBlock (xorBytes ((q.drop (16 * i)).take 16) (cbcCipher w q iv i)) w

/-- Dropping the first block of the text makes its ciphertext the IV (47_aes_cbc.md R231). -/
theorem cbcCipher_drop (w : Vector Word 44) (q iv : Bytes) (i : Nat) :
    cbcCipher w (q.drop 16) (cbcCipher w q iv 1) i = cbcCipher w q iv (i + 1) := by
  induction i with
  | zero => rfl
  | succ i ih => rw [cbcCipher, ih, List.drop_drop, Nat.add_comm 16, ← Nat.mul_succ, cbcCipher.eq_2 w q iv (i + 1)]

theorem cbcChain_blocks (w : Vector Word 44) (q iv : Bytes) (count : Nat) :
    cbcChain w iv (blocks 16 count q) = (List.range count).flatMap fun i => cbcCipher w q iv (i + 1) := by
  induction count generalizing q iv with
  | zero => rfl
  | succ n ih =>
    have hfirst : aesEncryptBlock (xorBytes (q.take 16) iv) w = cbcCipher w q iv 1 := rfl
    rw [blocks, cbcChain, hfirst, ih, List.range_succ_eq_map, List.flatMap_cons, List.flatMap_map]
    simp only [cbcCipher_drop]

theorem cbcCipher_length (w : Vector Word 44) (q iv : Bytes) (i : Nat) : (cbcCipher w q iv (i + 1)).length = 16 :=
  aesEncryptBlock_length _ _

/-- The ciphertext is the chained blocks in a row (47_aes_cbc.md R231). -/
theorem aesCbcEncrypt_eq (p key iv : Bytes) :
    aesCbcEncrypt p key iv =
      (List.range (p.length / 16 + 1)).flatMap fun i => cbcCipher (keyExpansion key) (pkcs7Pad p 16) iv (i + 1) := by
  rw [aesCbcEncrypt, pkcs7Pad_length p (by decide), Nat.mul_div_cancel_left _ (by decide), cbcChain_blocks]

theorem aesCbcEncrypt_length (p key iv : Bytes) : (aesCbcEncrypt p key iv).length = 16 * (p.length / 16 + 1) := by
  rw [aesCbcEncrypt_eq, flatMap_range_length (cbcCipher_length _ _ _)]

/-- What AES_CBC_ENC writes when its checks pass (47_aes_cbc.md R231, R233). -/
def aesCbcOutput (s : State) : Bytes :=
  aesCbcEncrypt (s.memRead s.regs.srcAddr.toNat s.regs.srcLen.toNat) (s.memRead s.regs.keyAddr.toNat 16) (s.memRead s.regs.ivAddr.toNat 16)

theorem exec_aesCbcEnc_of_ready {s : State} (h : AesCbcReady s) : exec .aesCbcEnc s = .next (s.withOutput (aesCbcOutput s)) :=
  congrArg Host.Outcome.next (commit_bufferCommand_ok (aesCbcChecks_pass_iff.2 h) _)

theorem aesCbcOutput_length (s : State) : (aesCbcOutput s).length = 16 * (s.regs.srcLen.toNat / 16 + 1) := by
  rw [aesCbcOutput, aesCbcEncrypt_length, memRead_length]

theorem aesCbcOutput_fits {s : State} (h : AesCbcReady s) : s.regs.dstAddr.toNat + (aesCbcOutput s).length ≤ s.memsize.toNat := by
  obtain ⟨-, -, -, -, hdst, -⟩ := h
  rwa [aesCbcOutput_length]

/-! ## PBKDF2 -/

/-- What PBKDF2 writes when its checks pass (44_pbkdf2.md R177, R180). -/
def pbkdf2Output (s : State) : Bytes :=
  pbkdf2 (s.memRead s.regs.srcAddr.toNat s.regs.srcLen.toNat) (s.memRead s.regs.saltAddr.toNat s.regs.saltLen.toNat)
    s.regs.iter.toNat s.regs.dkLen.toNat

theorem exec_pbkdf2_of_ready {s : State} (h : Pbkdf2Ready s) : exec .pbkdf2 s = .next (s.withOutput (pbkdf2Output s)) :=
  congrArg Host.Outcome.next (commit_bufferCommand_ok (pbkdf2Checks_pass_iff.2 h) _)

theorem pbkdf2Output_length (s : State) : (pbkdf2Output s).length = s.regs.dkLen.toNat := pbkdf2_length _ _ _ _

theorem pbkdf2Output_fits {s : State} (h : Pbkdf2Ready s) : s.regs.dstAddr.toNat + (pbkdf2Output s).length ≤ s.memsize.toNat := by
  obtain ⟨-, -, -, -, hdst, -⟩ := h
  rwa [pbkdf2Output_length]

/-! ## The statements -/

/-- Settles O24: the output is the unpadded blocks, each decrypted from its own range of DMEM. -/
theorem desEcbDecWritesTheUnpaddedPlaintext : Obligations.DesEcbDecWritesTheUnpaddedPlaintext := by
  intro s h sk p d
  have hp : desEcbOutput s = p := by
    obtain ⟨-, hmod, -⟩ := h
    have hlen : s.regs.srcLen.toNat = 8 * (s.regs.srcLen.toNat / 8) := by omega
    have hblocks := blocks_memRead s 8 (s.regs.srcLen.toNat / 8) s.regs.srcAddr.toNat
    rw [← hlen] at hblocks
    rw [desEcbOutput, desEcbBlocks, memRead_length, hblocks, List.flatMap_map]
  obtain ⟨hle, hge⟩ := desEcbOutput_length h
  rw [hp] at hle hge
  refine ⟨s.withOutput p, hp ▸ exec_desEcbDec_of_ready h, withOutput_frame s p, withOutput_outLen (hp ▸ desEcbOutput_fits h),
    withOutput_memRead s p, hle, hge, fun x hx => withOutput_readByte_outside s hx⟩

/-- Settles O25: decryption undoes the encryption block by block, and unpadding the padding. -/
theorem desEcbDecRecoversThePaddedText : Obligations.DesEcbDecRecoversThePaddedText := by
  intro s p h hct
  have hp : desEcbOutput s = p := by
    have hpad := pkcs7Pad_length p (bs := 8) (by decide)
    rw [desEcbOutput, hct, desEcbBlocks_desEcbEncrypt (by omega), pkcs7UnpadLenient_pkcs7Pad p (by decide) (by decide)]
  exact ⟨s.withOutput p, hp ▸ exec_desEcbDec_of_ready h, rfl, withOutput_outLen (hp ▸ desEcbOutput_fits h), withOutput_memRead s p⟩

/-- Settles O37: the output is the chained blocks in a row, block `i` at `DST_ADDR + 16·i`. -/
theorem aesCbcEncChainsTheBlocks : Obligations.AesCbcEncChainsTheBlocks := by
  intro s h q w d
  refine ⟨s.withOutput (aesCbcOutput s), cbcCipher w q (s.memRead s.regs.ivAddr.toNat 16), exec_aesCbcEnc_of_ready h,
    withOutput_frame s _, ?_, rfl, fun i hi => ⟨rfl, ?_⟩, fun x hx => withOutput_readByte_outside s (by rwa [aesCbcOutput_length])⟩
  · rw [withOutput_outLen (aesCbcOutput_fits h), aesCbcOutput_length]
  · rw [withOutput_memRead_part s (by rw [aesCbcOutput_length]; omega), aesCbcOutput, aesCbcEncrypt_eq, memRead_length,
      flatMap_range_block (cbcCipher_length _ _ _) hi]

/-- Settles O38: the `U` values are the iterates of the HMAC, and OUT_LEN is DKLEN because the key has that length. -/
theorem pbkdf2WritesTheDerivedKey : Obligations.Pbkdf2WritesTheDerivedKey := by
  intro s h p salt d
  have hexec := exec_pbkdf2_of_ready h
  have hlen := pbkdf2Output_length s
  have hout : (s.withOutput (pbkdf2Output s)).regs.outLen = s.regs.dkLen :=
    BitVec.eq_of_toNat_eq ((withOutput_outLen (pbkdf2Output_fits h)).trans hlen)
  obtain ⟨hiter, -⟩ := h
  refine ⟨s.withOutput (pbkdf2Output s), fun i j => (hmacSha1 p)^[j - 1] (hmacSha1 p (salt ++ int32be i)), hexec,
    ?_, fun i => rfl, fun i j hj => ?_, fun k hk => ?_, fun x hx => withOutput_readByte_outside s (by rwa [hlen])⟩
  · rw [← hout]
    exact withOutput_frame s _
  · obtain ⟨n, rfl⟩ := Nat.exists_eq_add_of_le' hj
    exact Function.iterate_succ_apply' ..
  · rw [withOutput_readByte_inside s (by rwa [hlen]), pbkdf2Output, pbkdf2_getD _ _ _ hk, pbkdf2Block_getD _ _ hiter]
    rfl

end Sys2Proof.Machine
end

section
/-! SUPPORT. The invariant (10_state.md R25, R48; 20_memory.md R60, R66): every access of the host and every step of the engine keeps it; and
what the commands give straight after reset (70_reset_and_hazards.md R283); then the proofs of the statements on both. -/

namespace Sys2Proof.Machine

/-! ## The engine's step -/

/-- A buffer command reports an error and does nothing else, or writes output that fits in DMEM (60_exceptions.md R253, R254). -/
theorem exec_buffer_cases {i : Instr} {s t : State} (hb : IsBufferCommand i) (h : exec i s = .next t) :
    (∃ e, t = s.raise e) ∨ ∃ bytes, s.regs.dstAddr.toNat + bytes.length ≤ s.memsize.toNat ∧ t = s.withOutput bytes := by
  obtain rfl | rfl | rfl := hb <;> cases h
  · refine (commit_bufferCommand_cases s fun hc => desEcbDecrypt_of_ready (desEcbChecks_pass_iff.1 hc)).imp_right fun ⟨hc, hout⟩ => ?_
    exact ⟨desEcbOutput s, desEcbOutput_fits (desEcbChecks_pass_iff.1 hc), hout⟩
  · refine (commit_bufferCommand_cases s fun _ => rfl).imp_right fun ⟨hc, hout⟩ => ?_
    exact ⟨aesCbcOutput s, aesCbcOutput_fits (aesCbcChecks_pass_iff.1 hc), hout⟩
  · refine (commit_bufferCommand_cases s fun _ => rfl).imp_right fun ⟨hc, hout⟩ => ?_
    exact ⟨pbkdf2Output s, pbkdf2Output_fits (pbkdf2Checks_pass_iff.1 hc), hout⟩

/-- Every command keeps DMEM canonical (20_memory.md R66). -/
theorem exec_keeps_wf {i : Instr} {s t : State} (hs : Memory.wf s.dmemSize s.dmem) (h : exec i s = .next t) :
    Memory.wf t.dmemSize t.dmem := by
  by_cases hb : IsBufferCommand i
  · obtain ⟨e, rfl⟩ | ⟨bytes, hfits, rfl⟩ := exec_buffer_cases hb h
    · exact hs
    · exact withOutput_wf hs hfits
  · rw [(exec_register_frame hb h).1]
    exact hs

theorem engineStep_keeps_inv {w : Word} {s t : State} (hs : Inv s) (h : engineStep w s = .next t) : Inv t where
  status := by rw [(engineStep_completes h).1]; exact completedStatus_legal _
  busy := by rw [(engineStep_completes h).1, engineStep_frame h]; rfl
  size := by rw [engineStep_memsize h]; exact hs.size
  mem := by
    obtain ⟨i, -, hi⟩ | ⟨r, -, hr⟩ := engineStep_cases w s
    · exact exec_keeps_wf hs.mem (hi.symm.trans h)
    · cases hr.symm.trans h; exact hs.mem

/-! ## The host's turn -/

/-- The invariant speaks of STATUS, the phase, MEMSIZE and DMEM alone. -/
theorem Inv.congr {s t : State} (hs : Inv s) (hstatus : t.status = s.status) (hphase : t.phase = s.phase)
    (hsize : t.memsize = s.memsize) (hmem : t.dmem = s.dmem) : Inv t where
  status := by rw [hstatus]; exact hs.status
  busy := by rw [hstatus, hphase]; exact hs.busy
  size := by rw [hsize]; exact hs.size
  mem := by rw [State.dmemSize, hsize, hmem]; exact hs.mem

/-- Acceptance sets BUSY and the phase together (60_exceptions.md R250). -/
theorem accept_keeps_inv {s : State} (hs : Inv s) (w : Word) : Inv (s.accept w) :=
  ⟨acceptedStatus_legal, rfl, hs.size, hs.mem⟩

/-- A reset leaves STATUS 0, the phase IDLE and nothing written (70_reset_and_hazards.md R281). -/
theorem coreReset_keeps_inv {s : State} (hs : Inv s) : Inv s.coreReset :=
  ⟨rfl, rfl, hs.size, coreReset_mem_wf s⟩

/-- A byte the host writes stands inside DMEM (20_memory.md R71). -/
theorem hostMemWrite_keeps_inv {s : State} (hs : Inv s) (a : Nat) (b : Byte) : Inv (s.hostMemWrite a b) := by
  by_cases hh : IsHazard s (.memWrite a b)
  · rw [hostMemWrite_of_isHazard hh]
    exact hs.congr rfl rfl rfl rfl
  · have ha : a < s.dmemSize := Nat.not_le.1 fun hle => hh (.inr hle)
    rw [hostMemWrite_of_not_isHazard hh]
    exact ⟨hs.status, hs.busy, hs.size, memInsert_wf hs.mem ha b⟩

theorem hostAccess_keeps_inv {s : State} (hs : Inv s) (op : HostOp) : Inv (s.hostAccess op) := by
  cases op with
  | regWrite off width v =>
    rw [State.hostAccess]
    obtain h | h | ⟨r, h⟩ | h := hostRegWrite_cases s off width v <;> rw [h]
    · exact hs.congr rfl rfl rfl rfl
    · exact accept_keeps_inv hs v
    · exact hs.congr rfl rfl rfl rfl
    · exact hs
  | regRead off width =>
    obtain ⟨hz, d, res, h⟩ := hostRegRead_frame s off width
    rw [State.hostAccess, h]
    exact hs.congr rfl rfl rfl rfl
  | memWrite a b => exact hostMemWrite_keeps_inv hs a b
  | memRead a =>
    obtain ⟨hz, d, res, h⟩ := hostMemRead_frame s a
    rw [State.hostAccess, h]
    exact hs.congr rfl rfl rfl rfl
  | wait =>
    rw [State.hostAccess, hostWait_eq]
    exact hs.congr rfl rfl rfl rfl
  | reset => exact coreReset_keeps_inv hs

theorem hostStep_keeps_inv {s : State} (hs : Inv s) : Inv s.hostStep := by
  obtain ⟨-, h⟩ | ⟨op, rest, -, h⟩ := hostStep_cases s
  · rw [h]; exact hs
  · rw [h]; exact hostAccess_keeps_inv (s := { s with host := rest }) (hs.congr rfl rfl rfl rfl) op

/-! ## After reset -/

/-- DMEM has at least one byte, whatever its open size is (00_scope.md R9). -/
theorem dmemSize_ne_zero : Config.dmemSize ≠ 0 := by
  intro h
  have hval : (BitVec.ofNat 32 (Config.dmemSizeIndex.val + 1)).toNat = 0 := congrArg BitVec.toNat h
  rw [BitVec.toNat_ofNat] at hval
  omega

/-- The weak key schedule of reset (70_reset_and_hazards.md R283). -/
theorem keySchedule_zero : keySchedule 0 = Vector.replicate 16 0 := by decide +kernel

theorem desBlock_reset (decrypt : Bool) : desBlock Regs.reset.desBlk Regs.reset.desSk decrypt = 0x8CA64DE9C1B123A7 := by
  cases decrypt
  · decide +kernel
  · decide +kernel

theorem aesEncryptBlock_reset : bytesQuad (aesEncryptBlock (quadBytes ⟨0, 0, 0, 0⟩) (Vector.replicate 44 0))
    = ⟨0x36363636, 0x36363636, 0x36363636, 0x36363636⟩ := by decide +kernel

/-! ## The statements -/

/-- Settles O10: nothing is written and nothing is pending after reset, and the open size is not 0. -/
theorem invariantHoldsAtReset : Obligations.InvariantHoldsAtReset := by
  have hreset (n : Word) (hn : n ≠ 0) : Inv (State.resetWith n) := ⟨rfl, rfl, hn, reset_mem_wf n⟩
  exact ⟨hreset, hreset _ dmemSize_ne_zero⟩

/-- Settles O11: a step is the engine's or the host's turn, and both keep the invariant. -/
theorem everyStepKeepsTheInvariant : Obligations.EveryStepKeepsTheInvariant := by
  intro s hs
  obtain ⟨-, h⟩ | ⟨w, -, -, h⟩ | ⟨w, -, -, h⟩ := step_cases s
  · exact ⟨_, h, hostStep_keeps_inv hs⟩
  · obtain ⟨t, ht⟩ := engineStep_next w s
    exact ⟨t, h.trans ht, engineStep_keeps_inv hs ht⟩
  · exact ⟨_, h, hostStep_keeps_inv (hs.congr rfl rfl rfl rfl)⟩

/-- Settles O46: the two block ciphers evaluated on reset's registers, and the first check of each buffer command. -/
theorem commandsStraightAfterReset : Obligations.CommandsStraightAfterReset := by
  intro n
  obtain ⟨ecb, hecb⟩ := exec_next .desEcbDec (State.resetWith n)
  obtain ⟨cbc, hcbc⟩ := exec_next .aesCbcEnc (State.resetWith n)
  obtain ⟨kdf, hkdf⟩ := exec_next .pbkdf2 (State.resetWith n)
  refine ⟨fun d => ⟨_, exec_desBlock d _, ?_⟩, keySchedule_zero.symm, ⟨_, exec_aesBlockEnc _, ?_⟩,
    ⟨ecb, hecb, exec_desEcbDec_ecode hecb⟩, ⟨cbc, hcbc, exec_aesCbcEnc_ecode hcbc⟩, ⟨kdf, hkdf, exec_pbkdf2_ecode hkdf⟩⟩
  · have hout : desBlock (State.resetWith n).regs.desBlk (State.resetWith n).regs.desSk d = 0x8CA64DE9C1B123A7 := desBlock_reset d
    rw [hout]
    exact ⟨rfl, rfl⟩
  · rw [State.completeOk_regs, onAesState_aesState]
    exact aesEncryptBlock_reset

end Sys2Proof.Machine
end
